-- ==== Sys2Proof/Config.lean ====
section
/-! DEFINITION. The implementation parameters (00_scope.md R6, R7). No free value stands here: the spec leaves no
result of any operation undefined (93_implementation_defined.md). -/

namespace Sys2Proof.Config

/-- The number of CAM entries of the machine that `State.reset` builds: the spec's default for the open parameter
`N_RULES` (00_scope.md R7, 92_eei_decisions.md D15). In every other state `N_RULES` is the length of the state's CAM
(notes/assumptions/1.md). -/
def nRules : Nat := 16

/-- `1 <= N_RULES` (00_scope.md R7). -/
def nRulesMin : Nat := 1

/-- `N_RULES <= 64` (00_scope.md R7). -/
def nRulesMax : Nat := 64

/-- `FRAME_LEN`, in bytes (00_scope.md R6). -/
def frameLen : Nat := 4

/-- `ZONE_MIN` (00_scope.md R6). -/
def zoneMin : Nat := 1

/-- `ZONE_MAX` (00_scope.md R6). -/
def zoneMax : Nat := 8

/-- The word index of `CAMKEY[0]` (10_state.md R29). -/
def camBase : Nat := 0x40

end Sys2Proof.Config
end

