-- ==== Sys2Proof/Word.lean ====
section
/-! DEFINITION. The word types of the PFC and nothing else: every value is an unsigned bit string of a fixed
width with bit 0 least significant (00_scope.md R8). -/

namespace Sys2Proof

/-- One byte of the stream (10_state.md R41). -/
abbrev Byte := BitVec 8

/-- A 16-bit word: `w0`, `w1`, a CAM key, a channel or payload handle (41_unpack.md R150, 00_scope.md R7). -/
abbrev Half := BitVec 16

/-- A host register word (10_state.md R29). -/
abbrev Word32 := BitVec 32

/-- A whole frame seen as one value, `frame[0]` in bits 31:24 (00_scope.md R10). -/
abbrev Frame := BitVec 32

/-- A host register word index `h_addr` (10_state.md R44). -/
abbrev Addr := BitVec 8

/-- A CAM entry index, `IDX_W = 6` bits whatever `N_RULES` is (00_scope.md R7). -/
abbrev CamIndex := BitVec 6

/-- The stream stimulus word `SW` (30_encoding.md R100). -/
abbrev StreamWord := BitVec 12

/-- The host stimulus word `HW` (30_encoding.md R101). -/
abbrev HostWord := BitVec 42

end Sys2Proof
end

