-- ==== Sys2Proof/Syntax.lean ====
section
/-! DEFINITION. The operations of the PFC, one constructor per row of spec/opcode_table.json (30_encoding.md R104), and
the words they come in: a cycle's stimulus (R100, R101) or a frame read under a layout (R91 to R93). -/

namespace Sys2Proof

/-- The two wire layouts (30_encoding.md R91, R92), selected by `CFG.LAYOUT` (10_state.md R32). -/
inductive Layout where
  /-- `CFG.LAYOUT = 0`: format Z, the static strategy. -/
  | bitfield
  /-- `CFG.LAYOUT = 1`: format K, the table strategy. -/
  | codeBytes
deriving DecidableEq, Repr

/-- One cycle's whole stimulus, the pair `(SW, HW)` (30_encoding.md R101). -/
structure Stimulus where
  /-- reset and stream ports -/
  sw : StreamWord
  /-- host ports -/
  hw : HostWord
deriving DecidableEq, Repr

/-- The operations (30_encoding.md R104), in the order of spec/opcode_table.json. -/
inductive Instr where
  /-- RESET (70_reset_and_hazards.md R260). -/
  | reset
  /-- RXBYTE with the byte `rx_data` (40_framesync.md R121, R122). -/
  | rxbyte (b : Byte)
  /-- RXCLOSE (40_framesync.md R125). -/
  | rxclose
  /-- TICK (40_framesync.md R124). -/
  | tick
  /-- NOP, the empty cycle (43_control_host.md R220). -/
  | nop
  /-- ZCLOSED: a frame of class "zone closed" (42_dispatch_cam.md R178). -/
  | zclosed (F : Frame)
  /-- ZOPEN: a frame of class "zone open" (42_dispatch_cam.md R179). -/
  | zopen (F : Frame)
  /-- ZRSV_EC2: eventCode 2, dropped (42_dispatch_cam.md R183). -/
  | zrsvEc2 (F : Frame)
  /-- ZRSV_EC3: eventCode 3, dropped (42_dispatch_cam.md R183). -/
  | zrsvEc3 (F : Frame)
  /-- ZRSV_T1: typeBit 1, dropped (42_dispatch_cam.md R183). -/
  | zrsvT1 (F : Frame)
  /-- ZDROP: zone out of range, dropped (42_dispatch_cam.md R183). -/
  | zdrop (F : Frame)
  /-- KEVT: a keyed event, looked up in the CAM (42_dispatch_cam.md R181, R182). -/
  | kevt (F : Frame)
  /-- STOP (43_control_host.md R203). -/
  | stop
  /-- START (43_control_host.md R202). -/
  | start
  /-- WR_CFG with `h_wdata` (43_control_host.md R204). -/
  | wrCfg (v : Word32)
  /-- WR_TMO with `h_wdata` (43_control_host.md R205). -/
  | wrTmo (v : Word32)
  /-- WR_CAMKEY of entry `i` with `h_wdata` (43_control_host.md R206). -/
  | wrCamkey (i : CamIndex) (v : Word32)
  /-- WR_CAMDATA of entry `i` with `h_wdata` (43_control_host.md R208). -/
  | wrCamdata (i : CamIndex) (v : Word32)
  /-- WR_IGN: any other write, of `h_wdata` to index `a` (43_control_host.md R209). -/
  | wrIgn (a : Addr) (v : Word32)
  /-- RD_CTRL (43_control_host.md R211). -/
  | rdCtrl
  /-- RD_STATUS (43_control_host.md R212). -/
  | rdStatus
  /-- RD_CFG (43_control_host.md R213). -/
  | rdCfg
  /-- RD_TMO (43_control_host.md R214). -/
  | rdTmo
  /-- RD_BUF (43_control_host.md R215). -/
  | rdBuf
  /-- RD_ID (43_control_host.md R216). -/
  | rdId
  /-- RD_CAMKEY of entry `i` (43_control_host.md R217). -/
  | rdCamkey (i : CamIndex)
  /-- RD_CAMDATA of entry `i` (43_control_host.md R218). -/
  | rdCamdata (i : CamIndex)
  /-- RD_RSVD: a read of any other index `a` (43_control_host.md R219). -/
  | rdRsvd (a : Addr)
  /-- UNP.TYPE (41_unpack.md R152). -/
  | unpType (F : Frame)
  /-- UNP.CODE (41_unpack.md R153). -/
  | unpCode (F : Frame)
  /-- UNP.ZONE (41_unpack.md R154). -/
  | unpZone (F : Frame)
  /-- UNP.HOURS (41_unpack.md R155). -/
  | unpHours (F : Frame)
  /-- UNP.MINUTES (41_unpack.md R156). -/
  | unpMinutes (F : Frame)
  /-- UNP.KEY (41_unpack.md R157). -/
  | unpKey (F : Frame)
deriving DecidableEq, Repr

/-- How an operation comes about (30_encoding.md R104, column "format"). -/
inductive Kind where
  /-- formats SW and HW: present in a cycle's stimulus -/
  | cycle
  /-- formats Z and K: the class of a completed frame -/
  | frameClass
  /-- "field": a slice the unpacker takes of every frame of its layout -/
  | slice
deriving DecidableEq, Repr

/-- The kind of an operation. -/
def Instr.kind : Instr → Kind
  | .reset => .cycle
  | .rxbyte _ => .cycle
  | .rxclose => .cycle
  | .tick => .cycle
  | .nop => .cycle
  | .zclosed _ => .frameClass
  | .zopen _ => .frameClass
  | .zrsvEc2 _ => .frameClass
  | .zrsvEc3 _ => .frameClass
  | .zrsvT1 _ => .frameClass
  | .zdrop _ => .frameClass
  | .kevt _ => .frameClass
  | .stop => .cycle
  | .start => .cycle
  | .wrCfg _ => .cycle
  | .wrTmo _ => .cycle
  | .wrCamkey _ _ => .cycle
  | .wrCamdata _ _ => .cycle
  | .wrIgn _ _ => .cycle
  | .rdCtrl => .cycle
  | .rdStatus => .cycle
  | .rdCfg => .cycle
  | .rdTmo => .cycle
  | .rdBuf => .cycle
  | .rdId => .cycle
  | .rdCamkey _ => .cycle
  | .rdCamdata _ => .cycle
  | .rdRsvd _ => .cycle
  | .unpType _ => .slice
  | .unpCode _ => .slice
  | .unpZone _ => .slice
  | .unpHours _ => .slice
  | .unpMinutes _ => .slice
  | .unpKey _ => .slice

/-- The words an operation is read from: a cycle's stimulus, or a frame together with the layout in force, since "A
decoder therefore takes the pair `(layout, F)`" (30_encoding.md R93). -/
inductive Encoding where
  /-- formats SW and HW -/
  | cycle (x : Stimulus)
  /-- formats Z and K -/
  | frame (l : Layout) (F : Frame)
deriving DecidableEq, Repr

end Sys2Proof
end

