-- ==== Sys2Proof/Machine/Slices.lean ====
section
/-! DEFINITION. Word assembly and register slices (41_unpack.md R150 to R157), and the range tests on zones and host indices
(42_dispatch_cam.md R177, 30_encoding.md R102, R103). -/

namespace Sys2Proof

/-- `a ‖ b`, "concatenation with `a` in the more significant position" (00_scope.md R8), in the width `n` of its place. -/
def bitcat {a b n : Nat} (hi : BitVec a) (lo : BitVec b) : BitVec n := (hi.setWidth n <<< b) ||| lo.setWidth n

/-- `be16(hi, lo) = hi ‖ lo` (41_unpack.md R150). -/
def be16 (hi lo : Byte) : Half := bitcat hi lo

/-- `slice(w, s, k) = w[s+k-1:s]` (41_unpack.md R151). -/
def slice (w : Half) (s k : Nat) : BitVec k := w.extractLsb' s k

/-- `F = frame[0] ‖ frame[1] ‖ frame[2] ‖ frame[3]` (00_scope.md R10). -/
def frameOf (b0 b1 b2 b3 : Byte) : Frame := bitcat (be16 b0 b1) (be16 b2 b3)

/-- `frame[0] = F[31:24]` (00_scope.md R10). -/
def frameByte0 (F : Frame) : Byte := F.extractLsb' 24 8

/-- `frame[1] = F[23:16]` (00_scope.md R10). -/
def frameByte1 (F : Frame) : Byte := F.extractLsb' 16 8

/-- `frame[2] = F[15:8]` (00_scope.md R10). -/
def frameByte2 (F : Frame) : Byte := F.extractLsb' 8 8

/-- `frame[3] = F[7:0]` (00_scope.md R10). -/
def frameByte3 (F : Frame) : Byte := F.extractLsb' 0 8

/-- `w0 = be16(frame[0], frame[1])` (41_unpack.md R150). -/
def frameW0 (F : Frame) : Half := be16 (frameByte0 F) (frameByte1 F)

/-- `w1 = be16(frame[2], frame[3])` (41_unpack.md R150). -/
def frameW1 (F : Frame) : Half := be16 (frameByte2 F) (frameByte3 F)

/-- UNP.TYPE's slice: `typeBit = (w0 >> 12) & 1` (41_unpack.md R152). -/
def frameType (F : Frame) : BitVec 1 := slice (frameW0 F) 12 1

/-- UNP.CODE's slice: `eventCode = (w0 >> 10) & 0b11` (41_unpack.md R153). -/
def frameCode (F : Frame) : BitVec 2 := slice (frameW0 F) 10 2

/-- UNP.ZONE's slice: `zone = (w0 >> 4) & 0b11111` (41_unpack.md R154). -/
def frameZone (F : Frame) : BitVec 5 := slice (frameW0 F) 4 5

/-- UNP.HOURS's slice: `hours = (w1 >> 11) & 0b11111` (41_unpack.md R155, and R158 for the code-bytes layout). -/
def frameHours (F : Frame) : BitVec 5 := slice (frameW1 F) 11 5

/-- UNP.MINUTES's slice: `minutes = (w1 >> 4) & 0b111111` (41_unpack.md R156, R158). -/
def frameMinutes (F : Frame) : BitVec 6 := slice (frameW1 F) 4 6

/-- `key = codeHigh ‖ codeLow` (41_unpack.md R157). -/
def eventKey (codeHigh codeLow : Byte) : Half := be16 codeHigh codeLow

/-- `zone ∈ [1, 8]`, an unsigned test (42_dispatch_cam.md R177, 41_unpack.md R160(5)). -/
def zoneValid (z : BitVec 5) : Bool :=
  decide (Config.zoneMin ≤ z.toNat) && decide (z.toNat ≤ Config.zoneMax)

/-- `a` is a CAM index of a PFC with `n` entries: `0x40 <= h_addr < 0x40 + 2·N_RULES` (30_encoding.md R102, R103). -/
def camAddr (n : Nat) (a : Addr) : Bool :=
  decide (Config.camBase ≤ a.toNat) && decide (a.toNat < Config.camBase + 2 * n)

/-- The entry a CAM index names: `i = (h_addr - 0x40) / 2` for an even index, `(h_addr - 0x41) / 2` for an odd one
(43_control_host.md R206, R208). -/
def camIndexOf (a : Addr) : CamIndex := BitVec.ofNat 6 ((a.toNat - Config.camBase) / 2)

/-- The index of `CAMKEY[i]`, `0x40 + 2i` (10_state.md R36). -/
def camkeyAddr (i : CamIndex) : Addr := BitVec.ofNat 8 (Config.camBase + 2 * i.toNat)

/-- The index of `CAMDATA[i]`, `0x41 + 2i` (10_state.md R37). -/
def camdataAddr (i : CamIndex) : Addr := BitVec.ofNat 8 (Config.camBase + 1 + 2 * i.toNat)

/-- A write of `v` to `a` that no row before WR_IGN takes (30_encoding.md R102, 43_control_host.md R209). -/
def writeIgnored (n : Nat) (a : Addr) (v : Word32) : Bool :=
  !(a == 0x00 && (v.getLsbD 0 || v.getLsbD 1)) && a != 0x02 && a != 0x03 && !camAddr n a

/-- A read of `a` that no row before RD_RSVD takes (30_encoding.md R103, 43_control_host.md R219). -/
def readReserved (n : Nat) (a : Addr) : Bool :=
  decide (0x05 < a.toNat) && !camAddr n a

end Sys2Proof
end

