-- ==== Sys2Proof/WellFormed.lean ====
section
/-! DEFINITION. Which terms of `Instr` are operations of a PFC with `n` CAM entries (30_encoding.md R96, R97, R102, R103). The
checks are stated on the fields of F and on the index; the decoder tests the spec's masks. -/

namespace Sys2Proof

/-- `i` is an operation of a PFC with `n` CAM entries. -/
def Instr.wellFormed (n : Nat) : Instr → Bool
  | .reset => true
  | .rxbyte _ => true
  | .rxclose => true
  | .tick => true
  | .nop => true
  | .zclosed F => frameType F == 0 && frameCode F == 0 && zoneValid (frameZone F)
  | .zopen F => frameType F == 0 && frameCode F == 1 && zoneValid (frameZone F)
  | .zrsvEc2 F => frameType F == 0 && frameCode F == 2
  | .zrsvEc3 F => frameType F == 0 && frameCode F == 3
  | .zrsvT1 F => frameType F == 1
  | .zdrop F => frameType F == 0 && decide ((frameCode F).toNat ≤ 1) && !zoneValid (frameZone F)
  | .kevt _ => true
  | .stop => true
  | .start => true
  | .wrCfg _ => true
  | .wrTmo _ => true
  | .wrCamkey i _ => decide (i.toNat < n)
  | .wrCamdata i _ => decide (i.toNat < n)
  | .wrIgn a v => writeIgnored n a v
  | .rdCtrl => true
  | .rdStatus => true
  | .rdCfg => true
  | .rdTmo => true
  | .rdBuf => true
  | .rdId => true
  | .rdCamkey i => decide (i.toNat < n)
  | .rdCamdata i => decide (i.toNat < n)
  | .rdRsvd a => readReserved n a
  | .unpType _ => true
  | .unpCode _ => true
  | .unpZone _ => true
  | .unpHours _ => true
  | .unpMinutes _ => true
  | .unpKey _ => true

end Sys2Proof
end

