-- ==== Sys2Proof/Decode.lean ====
section
/-! DEFINITION. The decoder, on the masks and matches of 30_encoding.md (R96, R97, R100, R102, R103), and after it the encoder.
A cycle's stimulus holds a list of operations (R100: "not exclusive of one another except that RESET overrides all");
a completed frame holds one class and the slices of its layout (R104). -/

namespace Sys2Proof

/-- A word matches a row of the table: `w & mask == match` (30_encoding.md R96, R100, R102, R103). -/
def rowMatches {k : Nat} (w mask m : BitVec k) : Bool := w &&& mask == m

/-- `h_addr = HW[39:32]` (30_encoding.md R101). -/
def hostAddr (hw : HostWord) : Addr := hw.extractLsb' 32 8

/-- `h_wdata = HW[31:0]` (30_encoding.md R101). -/
def hostData (hw : HostWord) : Word32 := hw.extractLsb' 0 32

/-- `rx_data = SW[7:0]` (30_encoding.md R100). -/
def streamData (sw : StreamWord) : Byte := sw.extractLsb' 0 8

/-- RESET is present: `rst = 1` (30_encoding.md R100). -/
def isReset (sw : StreamWord) : Bool := rowMatches sw 0x800 0x800

/-- The stream operations of a cycle without RESET, in phase order (30_encoding.md R100, 43_control_host.md R200). -/
def decodeStream (sw : StreamWord) : List Instr :=
  (if rowMatches sw 0x900 0x100 then [.rxbyte (streamData sw)] else []) ++
  (if rowMatches sw 0xA00 0x200 then [.rxclose] else []) ++
  (if rowMatches sw 0xC00 0x400 then [.tick] else [])

/-- The host write operation of a PFC with `n` CAM entries, rows tested in the order of 30_encoding.md R102. -/
def decodeWrite (n : Nat) (hw : HostWord) : Option Instr :=
  if rowMatches hw 0x2FF00000002 0x20000000002 then some .stop
  else if rowMatches hw 0x2FF00000003 0x20000000001 then some .start
  else if rowMatches hw 0x2FF00000000 0x20200000000 then some (.wrCfg (hostData hw))
  else if rowMatches hw 0x2FF00000000 0x20300000000 then some (.wrTmo (hostData hw))
  else if rowMatches hw 0x20100000000 0x20000000000 && camAddr n (hostAddr hw) then
    some (.wrCamkey (camIndexOf (hostAddr hw)) (hostData hw))
  else if rowMatches hw 0x20100000000 0x20100000000 && camAddr n (hostAddr hw) then
    some (.wrCamdata (camIndexOf (hostAddr hw)) (hostData hw))
  else if rowMatches hw 0x20000000000 0x20000000000 then some (.wrIgn (hostAddr hw) (hostData hw))
  else none

/-- The host read operation of a PFC with `n` CAM entries, rows tested in the order of 30_encoding.md R103. -/
def decodeRead (n : Nat) (hw : HostWord) : Option Instr :=
  if rowMatches hw 0x1FF00000000 0x10000000000 then some .rdCtrl
  else if rowMatches hw 0x1FF00000000 0x10100000000 then some .rdStatus
  else if rowMatches hw 0x1FF00000000 0x10200000000 then some .rdCfg
  else if rowMatches hw 0x1FF00000000 0x10300000000 then some .rdTmo
  else if rowMatches hw 0x1FF00000000 0x10400000000 then some .rdBuf
  else if rowMatches hw 0x1FF00000000 0x10500000000 then some .rdId
  else if rowMatches hw 0x10100000000 0x10000000000 && camAddr n (hostAddr hw) then
    some (.rdCamkey (camIndexOf (hostAddr hw)))
  else if rowMatches hw 0x10100000000 0x10100000000 && camAddr n (hostAddr hw) then
    some (.rdCamdata (camIndexOf (hostAddr hw)))
  else if rowMatches hw 0x10000000000 0x10000000000 then some (.rdRsvd (hostAddr hw))
  else none

/-- NOP where a cycle holds no other operation (43_control_host.md R220). -/
def orNop : List Instr → List Instr
  | [] => [.nop]
  | i :: is => i :: is

/-- The operations of one cycle in the order the cycle performs them: RESET alone; else the read (it sees the state at
the start of the cycle), the stream phases, the write (43_control_host.md R200); NOP where there is none (R220). -/
def decodeCycle (n : Nat) (x : Stimulus) : List Instr :=
  if isReset x.sw then [.reset]
  else orNop ((decodeRead n x.hw).toList ++ decodeStream x.sw ++ (decodeWrite n x.hw).toList)

/-- The class of a frame under format Z, classes tested in the order of 30_encoding.md R96. -/
def decodeZ (F : Frame) : Instr :=
  if rowMatches F 0x1C000000 0x00000000 && zoneValid (F.extractLsb' 20 5) then .zclosed F
  else if rowMatches F 0x1C000000 0x04000000 && zoneValid (F.extractLsb' 20 5) then .zopen F
  else if rowMatches F 0x1C000000 0x08000000 then .zrsvEc2 F
  else if rowMatches F 0x1C000000 0x0C000000 then .zrsvEc3 F
  else if rowMatches F 0x10000000 0x10000000 then .zrsvT1 F
  else .zdrop F

/-- The class of a frame: "A decoder therefore takes the pair `(layout, F)`" (30_encoding.md R93, R96, R97). -/
def decodeFrame : Layout → Frame → Instr
  | .bitfield, F => decodeZ F
  | .codeBytes, F => .kevt F

/-- The slices the unpacker takes of a frame: "all that apply to the active layout run on every frame"
(30_encoding.md R104; the fields are those of R91 and R92). -/
def decodeSlices : Layout → Frame → List Instr
  | .bitfield, F => [.unpType F, .unpCode F, .unpZone F, .unpHours F, .unpMinutes F]
  | .codeBytes, F => [.unpKey F, .unpHours F, .unpMinutes F]

/-- Every operation that the words hold, in the order they are performed, on a PFC with `n` CAM entries. -/
def decode (n : Nat) : Encoding → List Instr
  | .cycle x => decodeCycle n x
  | .frame l F => decodeSlices l F ++ [decodeFrame l F]

/-- Why a table word is no word of the PFC (notes/assumptions/7.md). Raised by `decodeWord` only: no step meets one. Safe. -/
inductive DecodeRejection where
  /-- the container's bits above the 12 of SW (30_encoding.md R100) are not 0 -/
  | streamWordTooWide
  /-- the word is longer than the four bytes of a frame (30_encoding.md R90) -/
  | frameTooWide
  /-- the container's bits above the 42 of HW (30_encoding.md R101) are not 0 -/
  | hostWordTooWide
  /-- no format of the table has this many bits -/
  | noSuchFormat
deriving DecidableEq, Repr

/-- The words a number of `nbits` bits stands for, read in the narrowest format that has that many bits: two bytes
hold SW with no host access, four a frame under the layout `l`, six HW with no stream input. -/
def wordEncoding (l : Layout) (nbits w : Nat) : Except DecodeRejection Encoding :=
  if nbits ≤ 16 then
    if w < 2 ^ 12 then .ok (.cycle ⟨BitVec.ofNat 12 w, 0⟩) else .error .streamWordTooWide
  else if nbits ≤ 32 then
    if w < 2 ^ 32 then .ok (.frame l (BitVec.ofNat 32 w)) else .error .frameTooWide
  else if nbits ≤ 48 then
    if w < 2 ^ 42 then .ok (.cycle ⟨0, BitVec.ofNat 42 w⟩) else .error .hostWordTooWide
  else .error .noSuchFormat

/-- The one operation a table word stands for: of a cycle the first that is performed, of a frame its class
(notes/assumptions/6.md, 7.md). -/
def leadInstr (n : Nat) : Encoding → Option Instr
  | .cycle x => (decodeCycle n x).head?
  | .frame l F => some (decodeFrame l F)

/-- The decoder on a table word, total, rejecting by name, for a PFC with `n` CAM entries under layout `l`. -/
def decodeWord (n : Nat) (l : Layout) (nbits w : Nat) : Except DecodeRejection (Option Instr) :=
  (wordEncoding l nbits w).map (leadInstr n)

/-- The operation the decoder reads from a table word, under the layout and `N_RULES` of reset (10_state.md R46). -/
def decodeTableWord (nbits w : Nat) : Option Instr :=
  match decodeWord Config.nRules .bitfield nbits w with
  | .ok i => i
  | .error _ => none

/-! ## The encoder -/

/-- `HW` packed from the host ports (30_encoding.md R101). -/
def hostWord (we re : Bool) (a : Addr) (v : Word32) : HostWord :=
  bitcat (bitcat (bitcat (BitVec.ofBool we) (BitVec.ofBool re) : BitVec 2) a : BitVec 10) v

/-- `SW` packed from the reset and stream ports (30_encoding.md R100). -/
def streamWord (rst tick closed valid : Bool) (b : Byte) : StreamWord :=
  bitcat (bitcat (bitcat (BitVec.ofBool rst) (BitVec.ofBool tick) : BitVec 2)
    (bitcat (BitVec.ofBool closed) (BitVec.ofBool valid) : BitVec 2) : BitVec 4) b

/-- A cycle with a stream word only. -/
def streamOnly (sw : StreamWord) : Encoding := .cycle ⟨sw, 0⟩

/-- A cycle with a host write only. -/
def writeOnly (a : Addr) (v : Word32) : Encoding := .cycle ⟨0, hostWord true false a v⟩

/-- A cycle with a host read only (`h_wdata` is "written as 0 then", 30_encoding.md R101). -/
def readOnly (a : Addr) : Encoding := .cycle ⟨0, hostWord false true a 0⟩

/-- The words of an operation: the cycle that holds it alone, or a frame of its class under its layout
(30_encoding.md R91, R92, R100 to R105). UNP.HOURS and UNP.MINUTES belong to both layouts; the table's format Z is used. -/
def encode : Instr → Encoding
  | .reset => streamOnly (streamWord true false false false 0)
  | .rxbyte b => streamOnly (streamWord false false false true b)
  | .rxclose => streamOnly (streamWord false false true false 0)
  | .tick => streamOnly (streamWord false true false false 0)
  | .nop => streamOnly (streamWord false false false false 0)
  | .zclosed F => .frame .bitfield F
  | .zopen F => .frame .bitfield F
  | .zrsvEc2 F => .frame .bitfield F
  | .zrsvEc3 F => .frame .bitfield F
  | .zrsvT1 F => .frame .bitfield F
  | .zdrop F => .frame .bitfield F
  | .kevt F => .frame .codeBytes F
  | .stop => writeOnly 0x00 0x2
  | .start => writeOnly 0x00 0x1
  | .wrCfg v => writeOnly 0x02 v
  | .wrTmo v => writeOnly 0x03 v
  | .wrCamkey i v => writeOnly (camkeyAddr i) v
  | .wrCamdata i v => writeOnly (camdataAddr i) v
  | .wrIgn a v => writeOnly a v
  | .rdCtrl => readOnly 0x00
  | .rdStatus => readOnly 0x01
  | .rdCfg => readOnly 0x02
  | .rdTmo => readOnly 0x03
  | .rdBuf => readOnly 0x04
  | .rdId => readOnly 0x05
  | .rdCamkey i => readOnly (camkeyAddr i)
  | .rdCamdata i => readOnly (camdataAddr i)
  | .rdRsvd a => readOnly a
  | .unpType F => .frame .bitfield F
  | .unpCode F => .frame .bitfield F
  | .unpZone F => .frame .bitfield F
  | .unpHours F => .frame .bitfield F
  | .unpMinutes F => .frame .bitfield F
  | .unpKey F => .frame .codeBytes F

end Sys2Proof
end

