-- ==== Sys2Proof/Machine/State.lean ====
section
/-! DEFINITION. What the PFC holds from one cycle to the next (10_state.md R20), the output events (00_scope.md R13), and the
model's own record of one cycle's inputs and outputs (INVENTORY.md, "State"). -/

namespace Sys2Proof.Machine

/-- The run state, "three values" (10_state.md R25); the encoding 3 "is never held", so it has no constructor
(93_implementation_defined.md U8). -/
inductive Run where
  /-- 0 -/
  | starting
  /-- 1 -/
  | running
  /-- 2 -/
  | stopped
deriving DecidableEq, Repr

/-- One CAM entry (10_state.md R20, R36, R37, R40). -/
structure CamEntry where
  /-- the entry takes part in matching -/
  valid : Bool
  /-- `KEY_HI ‖ KEY_LO` -/
  key : Half
  /-- channel handle -/
  chan : Half
  /-- payload handle -/
  payl : Half
deriving DecidableEq, Repr

/-- The decoded event, "a tagged union with one constructor per layout" (41_unpack.md R159). -/
inductive DecodedEvent where
  /-- `Z`: the bitfield layout -/
  | zone (typeBit : BitVec 1) (eventCode : BitVec 2) (zone : BitVec 5) (hours : BitVec 5) (minutes : BitVec 6)
  /-- `K`: the code-bytes layout -/
  | key (codeHigh codeLow : Byte) (hours : BitVec 5) (minutes : BitVec 6)
deriving DecidableEq, Repr

/-- `kind` of an intent (42_dispatch_cam.md R176). -/
inductive Strategy where
  /-- 0: the static zone/state strategy -/
  | static
  /-- 1: the table-driven strategy -/
  | table
deriving DecidableEq, Repr

/-- The source's PublishIntent in the PFC's form (42_dispatch_cam.md R176). -/
structure Intent where
  kind : Strategy
  chan : Half
  payl : Half
  idx : BitVec 6
deriving DecidableEq, Repr

/-- The output events, "the closed sum" of 00_scope.md R13. -/
inductive OutEvent where
  /-- `RAW(F)` -/
  | raw (F : Frame)
  /-- `DECODED(ev)` -/
  | decoded (ev : DecodedEvent)
  /-- `INTENT(kind, chan, payl, idx)` -/
  | intent (i : Intent)
  /-- `TIMEOUT` -/
  | timeout
  /-- `PARTIAL(n, b0, b1, b2)` -/
  | partialFrame (n : BitVec 2) (b0 b1 b2 : Byte)
  /-- `FATAL(code)` -/
  | fatal (code : BitVec 2)
deriving DecidableEq, Repr

/-- The data ports of a decoded event that the unpacker drives (10_state.md R45, 41_unpack.md R165): the model's own field
for the values "inside the cycle in which the fourth byte arrives" (10_state.md R42). -/
structure EventPorts where
  /-- `o_ev_type` -/
  typeBit : BitVec 1
  /-- `o_ev_code` -/
  eventCode : BitVec 2
  /-- `o_ev_zone` -/
  zone : BitVec 5
  /-- `o_ev_key` -/
  key : Half
  /-- `o_ev_hours` -/
  hours : BitVec 5
  /-- `o_ev_minutes` -/
  minutes : BitVec 6
deriving DecidableEq, Repr

/-- The state. The fields down to `cam` are the record of 10_state.md R20, whole; the rest is the model's own:
the environment's pending inputs and what the outside world has seen (notes/assumptions/2.md, 3.md, 4.md). -/
structure State where
  /-- `run` (R25) -/
  run : Run
  /-- `stop_req` (R26) -/
  stopReq : Bool
  /-- `cnt`, bytes of the current frame held, 0..3 (R22) -/
  cnt : BitVec 2
  /-- `buf[0]` (R21) -/
  buf0 : Byte
  /-- `buf[1]` (R21) -/
  buf1 : Byte
  /-- `buf[2]` (R21) -/
  buf2 : Byte
  /-- `tmo_cnt`, ticks left of the read's window (R27) -/
  tmoCnt : BitVec 8
  /-- `layout`, `CFG.LAYOUT` (R32) -/
  layout : Layout
  /-- `tmo_reload`, `TMO.RELOAD` (R33) -/
  tmoReload : BitVec 8
  /-- `cam[0]` to `cam[N_RULES - 1]` (R40); its length is `N_RULES` -/
  cam : List CamEntry
  /-- the model's own: the stimulus words of the cycles to come, the next first -/
  stim : List Stimulus
  /-- the model's own: the output list of the cycle (43_control_host.md R200) -/
  out : List OutEvent
  /-- the model's own: `h_rdata` of the cycle (10_state.md R45) -/
  rdata : Word32
  /-- the model's own: the event data ports of the cycle (10_state.md R45) -/
  unp : EventPorts
  /-- the model's own: every event of the run so far, in order (00_scope.md R17(a)) -/
  trace : List OutEvent
  /-- the model's own: every value host reads have returned so far, in order (00_scope.md R17(b)) -/
  reads : List Word32
deriving DecidableEq, Repr

/-- The spec gives no fault: its step is total (00_scope.md R12), "decode and dispatch never raise" (60_exceptions.md
R248), and a stray host access is ignored (10_state.md R38). So the type has no constructor, which is safe: no step can
answer a fault. -/
inductive Fault where
deriving DecidableEq, Repr

/-- Why an operation has no meaning. -/
inductive Refusal where
  /-- Raised by an arm of `exec` for an operation without a meaning; no arm raises it, every operation has one. Safe. -/
  | notModelled (mnemonic : String)
deriving DecidableEq, Repr

/-- A CAM entry at its reset value, invalid and all zero (10_state.md R46). -/
def CamEntry.cleared : CamEntry := ⟨false, 0, 0, 0⟩

/-- Event data ports when `o_ev_valid = 0`: driven 0 (10_state.md R45). -/
def EventPorts.idle : EventPorts := ⟨0, 0, 0, 0, 0, 0⟩

/-- `State0` of a PFC with `n` CAM entries (10_state.md R46, 70_reset_and_hazards.md R260), no input pending, nothing seen
yet. -/
def State.ofRules (n : Nat) : State where
  run := .starting
  stopReq := false
  cnt := 0
  buf0 := 0
  buf1 := 0
  buf2 := 0
  tmoCnt := 0
  layout := .bitfield
  tmoReload := 1
  cam := List.replicate n .cleared
  stim := []
  out := []
  rdata := 0
  unp := .idle
  trace := []
  reads := []

/-- The machine right after reset, with the spec's default number of CAM entries (00_scope.md R7, 10_state.md R46). -/
def State.reset : State := State.ofRules Config.nRules

/-- `N_RULES` of the machine whose state this is (notes/assumptions/1.md). -/
def State.nRules (s : State) : Nat := s.cam.length

end Sys2Proof.Machine
end

