-- ==== Sys2Proof/Machine/Operands.lean ====
section
/-! DEFINITION. The values operations compute from their operands: the unpacker's decode and its inverse (41_unpack.md), the
dispatcher and the CAM lookup (42_dispatch_cam.md), the bit encodings of fields that are not bits in State. -/

namespace Sys2Proof.Machine

/-- The encoding of `run`: STARTING 0, RUNNING 1, STOPPED 2 (10_state.md R25). -/
def Run.code : Run → BitVec 2
  | .starting => 0
  | .running => 1
  | .stopped => 2

/-- `CFG.LAYOUT` of a layout (10_state.md R32). -/
def layoutBit : Layout → BitVec 1
  | .bitfield => 0
  | .codeBytes => 1

/-- The layout a written `CFG.LAYOUT` selects (10_state.md R32, 43_control_host.md R204). -/
def layoutOf (bit : Bool) : Layout := if bit then .codeBytes else .bitfield

/-- `kind` as the port carries it: 0 static, 1 table (10_state.md R45). -/
def Strategy.code : Strategy → BitVec 1
  | .static => 0
  | .table => 1

/-! ## The unpacker -/

/-- `decode(layout, F)` (41_unpack.md R159): "Pure function, no side effects, cannot fail". -/
def decodeEvent : Layout → Frame → DecodedEvent
  | .bitfield, F => .zone (frameType F) (frameCode F) (frameZone F) (frameHours F) (frameMinutes F)
  | .codeBytes, F => .key (frameByte0 F) (frameByte1 F) (frameHours F) (frameMinutes F)

/-- The layout a decoded event came from: its tag (41_unpack.md R165). -/
def DecodedEvent.layout : DecodedEvent → Layout
  | .zone .. => .bitfield
  | .key .. => .codeBytes

/-- The event flattened on its data ports, "the fields of the other constructor are driven 0" (41_unpack.md R165). -/
def DecodedEvent.ports : DecodedEvent → EventPorts
  | .zone t e z h m => ⟨t, e, z, 0, h, m⟩
  | .key a b h m => ⟨0, 0, 0, eventKey a b, h, m⟩

/-- `packZ`: each field at its position and 0 in every unused bit (41_unpack.md R163). "not operations of the PFC". -/
def packZ (typeBit : BitVec 1) (eventCode : BitVec 2) (zone hours : BitVec 5) (minutes : BitVec 6) : Frame :=
  let w0 : Half := (typeBit.setWidth 16 <<< 12) ||| (eventCode.setWidth 16 <<< 10) ||| (zone.setWidth 16 <<< 4)
  let w1 : Half := (hours.setWidth 16 <<< 11) ||| (minutes.setWidth 16 <<< 4)
  bitcat w0 w1

/-- `packK` (41_unpack.md R163). -/
def packK (codeHigh codeLow : Byte) (hours : BitVec 5) (minutes : BitVec 6) : Frame :=
  let w1 : Half := (hours.setWidth 16 <<< 11) ||| (minutes.setWidth 16 <<< 4)
  bitcat (be16 codeHigh codeLow) w1

/-- The frame that `packZ` or `packK` builds from a decoded event's fields (41_unpack.md R163). -/
def packEvent : DecodedEvent → Frame
  | .zone t e z h m => packZ t e z h m
  | .key a b h m => packK a b h m

/-- The bits of a frame that some field reads: the complement of the unused bits (30_encoding.md R95). -/
def fieldMask : Layout → Frame
  | .bitfield => 0x1DF0FBF0
  | .codeBytes => 0xFFFFFBF0

/-! ## The dispatcher -/

/-- Entry `e` matches the key: `m[i] <- cam[i].valid == 1 and cam[i].key == k` (42_dispatch_cam.md R180). -/
def CamEntry.matchesKey (e : CamEntry) (k : Half) : Bool := e.valid && e.key == k

/-- The priority encoder from entry number `i` on: the least matching index and its entry (42_dispatch_cam.md R180). -/
def camLookupFrom (k : Half) : List CamEntry → Nat → Option (Nat × CamEntry)
  | [], _ => none
  | e :: es, i => if e.matchesKey k then some (i, e) else camLookupFrom k es (i + 1)

/-- The CAM lookup of key `k` (42_dispatch_cam.md R180). -/
def camLookup (cam : List CamEntry) (k : Half) : Option (Nat × CamEntry) := camLookupFrom k cam 0

/-- The intent of a CAM hit: the entry's handles "verbatim", `idx = zext_6(i)` (42_dispatch_cam.md R176, R181). -/
def tableIntent (hit : Nat × CamEntry) : Intent :=
  ⟨.table, hit.2.chan, hit.2.payl, BitVec.ofNat 6 hit.1⟩

/-- The intent of the static strategy: `chan = zext_16(zone)` (42_dispatch_cam.md R176). -/
def zoneIntent (zone : BitVec 5) (payl : Half) : Intent := ⟨.static, zone.setWidth 16, payl, 0⟩

/-- `valid_zone_event` (42_dispatch_cam.md R177). -/
def zoneEventValid (typeBit : BitVec 1) (eventCode : BitVec 2) (zone : BitVec 5) : Bool :=
  typeBit == 0 && decide (eventCode.toNat ≤ 1) && zoneValid zone

/-- `dispatch(s, ev)`, which reads the event and the CAM and nothing else (42_dispatch_cam.md R189, R188). -/
def dispatchEvent (cam : List CamEntry) : DecodedEvent → Option Intent
  | .zone t e z _ _ => if zoneEventValid t e z then some (zoneIntent z (e.setWidth 16)) else none
  | .key a b _ _ => (camLookup cam (eventKey a b)).map tableIntent

end Sys2Proof.Machine
end

