-- ==== Sys2Proof/Machine/Flags.lean ====
section
/-! DEFINITION. "The PFC has no condition codes, no carry, zero, sign or overflow flag, and no predicate. No operation sets a
flag as a side effect. The only status bits are the read-only fields of `STATUS`" (10_state.md R28): the words a register
read returns, each a view of State. -/

namespace Sys2Proof.Machine

/-- `CTRL` reads 0 (10_state.md R30, 43_control_host.md R211). -/
def ctrlWord (_s : State) : Word32 := 0

/-- `STATUS` (10_state.md R31, 43_control_host.md R212). -/
def statusWord (s : State) : Word32 :=
  (s.tmoCnt.setWidth 32 <<< 8) ||| ((BitVec.ofBool s.stopReq).setWidth 32 <<< 4) ||| (s.cnt.setWidth 32 <<< 2) |||
    s.run.code.setWidth 32

/-- `CFG` (10_state.md R32, 43_control_host.md R213). -/
def cfgWord (s : State) : Word32 := (layoutBit s.layout).setWidth 32

/-- `TMO` (10_state.md R33, 43_control_host.md R214). -/
def tmoWord (s : State) : Word32 := s.tmoReload.setWidth 32

/-- `BUF` (10_state.md R34, 43_control_host.md R215). -/
def bufWord (s : State) : Word32 := bitcat (be16 s.buf0 s.buf1) (be16 s.buf2 0)

/-- `ID`: `FRAME_LEN` in bits 15:8, `N_RULES` in bits 7:0 (10_state.md R35, 43_control_host.md R216). -/
def idWord (s : State) : Word32 :=
  bitcat (BitVec.ofNat 8 Config.frameLen) (BitVec.ofNat 8 s.nRules)

/-- `CAMKEY[i]`: `VALID` in bit 31, the key in bits 15:0; 0 beyond the last entry (10_state.md R36, R38). -/
def camkeyWord (s : State) (i : CamIndex) : Word32 :=
  match s.cam[i.toNat]? with
  | some e => ((BitVec.ofBool e.valid).setWidth 32 <<< 31) ||| e.key.setWidth 32
  | none => 0

/-- `CAMDATA[i]`: `CHAN` in bits 31:16, `PAYL` in bits 15:0; 0 beyond the last entry (10_state.md R37, R38). -/
def camdataWord (s : State) (i : CamIndex) : Word32 :=
  match s.cam[i.toNat]? with
  | some e => bitcat e.chan e.payl
  | none => 0

/-- A reserved index reads 0 (10_state.md R38, 43_control_host.md R219). -/
def reservedWord (_a : Addr) : Word32 := 0

/-- `RegRead(s, a)`, by index (10_state.md R29, 43_control_host.md R210). -/
def regRead (s : State) (a : Addr) : Word32 :=
  if a = 0x00 then ctrlWord s
  else if a = 0x01 then statusWord s
  else if a = 0x02 then cfgWord s
  else if a = 0x03 then tmoWord s
  else if a = 0x04 then bufWord s
  else if a = 0x05 then idWord s
  else if camAddr s.nRules a then
    if a.toNat % 2 = 0 then camkeyWord s (camIndexOf a) else camdataWord s (camIndexOf a)
  else reservedWord a

end Sys2Proof.Machine
end

