-- ==== Sys2Proof/Machine/Ops.lean ====
section
/-! DEFINITION. The named operations over State that the meanings share: output events, the byte-alignment buffer, TAKING AN
OUTCOME (the PFC's form of an exception, 60_exceptions.md R240), the run state, the configuration registers, and the start of
a cycle. -/

namespace Sys2Proof.Machine

/-! ## Outputs -/

/-- `emit E(args)`: append to the output list (00_scope.md R11). -/
def State.emit (e : OutEvent) (s : State) : State :=
  { s with out := s.out ++ [e], trace := s.trace ++ [e] }

/-- `emit` where there is an intent, nothing where there is none (40_framesync.md R133). -/
def State.emitIntent (i : Option Intent) (s : State) : State :=
  match i with
  | some i => s.emit (.intent i)
  | none => s

/-- A host read returns `v` on `h_rdata` and changes nothing of the PFC (43_control_host.md R210, 20_memory.md R69). -/
def State.hostReturn (v : Word32) (s : State) : State :=
  { s with rdata := v, reads := s.reads ++ [v] }

/-- The unpacker drives the event data ports. -/
def State.drive (p : EventPorts) (s : State) : State := { s with unp := p }

/-! ## Frames -/

/-- The events of one frame in their order, `RAW` first, "always" (40_framesync.md R133). -/
def State.emitFrame (F : Frame) (ev : DecodedEvent) (i : Option Intent) (s : State) : State :=
  ((s.emit (.raw F)).emit (.decoded ev)).emitIntent i

/-- `process_frame(s, F)` (40_framesync.md R133). -/
def State.processFrame (F : Frame) (s : State) : State :=
  let ev := decodeEvent s.layout F
  (s.drive ev.ports).emitFrame F ev (dispatchEvent s.cam ev)

/-! ## The byte-alignment buffer -/

/-- `x[i] <- b` for `i` in 0..2 (00_scope.md R11, 10_state.md R21); 3 names no register. -/
def State.setBuf (i : BitVec 2) (b : Byte) (s : State) : State :=
  if i = 0 then { s with buf0 := b }
  else if i = 1 then { s with buf1 := b }
  else if i = 2 then { s with buf2 := b }
  else s

/-- `cnt <- 0` and the buffer cleared: bytes "are discarded (never buffered across calls)" (40_framesync.md R126). -/
def State.clearBuf (s : State) : State := { s with cnt := 0, buf0 := 0, buf1 := 0, buf2 := 0 }

/-- The next read's window starts (40_framesync.md R129). -/
def State.reload (s : State) : State := { s with tmoCnt := s.tmoReload }

/-- `run <- STOPPED ; stop_req <- 0 ; tmo_cnt <- 0` (40_framesync.md R125, R126). -/
def State.halt (s : State) : State := { s with run := .stopped, stopReq := false, tmoCnt := 0 }

/-! ## Outcomes -/

/-- The four outcomes (60_exceptions.md R230). -/
inductive FsOutcome where
  /-- code 0: the fourth byte completed `F` -/
  | frame (F : Frame)
  /-- code 1 -/
  | timeout
  /-- code 2, by the expiry of the read-3 window -/
  | partialRead
  /-- code 3, preceded by PARTIAL where bytes are held -/
  | disconnected
deriving DecidableEq, Repr

/-- The outcome codes (60_exceptions.md R230); "Only code 3 appears on a port". -/
def FsOutcome.code : FsOutcome → BitVec 2
  | .frame _ => 0
  | .timeout => 1
  | .partialRead => 2
  | .disconnected => 3

/-- `PARTIAL(cnt, buf[0], buf[1], buf[2])` (60_exceptions.md R232). -/
def State.emitPartial (s : State) : State := s.emit (.partialFrame s.cnt s.buf0 s.buf1 s.buf2)

/-- The epilogue of every outcome other than DISCONNECTED (40_framesync.md R126), with the deferred stop (R127). -/
def State.epilogue (s : State) : State :=
  let s := s.clearBuf
  if s.stopReq then s.halt else s.reload

/-- TAKING AN OUTCOME: its events, then its state change, in one cycle (60_exceptions.md R240, R241). "There is no return
operation" (R242): nothing is saved and nothing is restored. -/
def State.takeOutcome (o : FsOutcome) (s : State) : State :=
  match o with
  | .frame F => (s.processFrame F).epilogue
  | .timeout => (s.emit .timeout).epilogue
  | .partialRead => s.emitPartial.epilogue
  | .disconnected =>
    let s := if s.cnt = 0 then s else s.emitPartial
    ((s.emit (.fatal FsOutcome.disconnected.code)).clearBuf).halt

/-! ## The stream operations behind their gate (40_framesync.md R120) -/

/-- One byte of the stream (40_framesync.md R121 for bytes 1 to 3, R122 for byte 4). -/
def State.acceptByte (b : Byte) (s : State) : State :=
  if s.run ≠ .running then s
  else if s.cnt.toNat ≤ 2 then
    let t := if s.cnt = 0 then s.reload else s
    { t.setBuf s.cnt b with cnt := s.cnt + 1 }
  else s.takeOutcome (.frame (frameOf s.buf0 s.buf1 s.buf2 b))

/-- The source reports closure (40_framesync.md R125). -/
def State.sourceClosed (s : State) : State :=
  if s.run ≠ .running then s else s.takeOutcome .disconnected

/-- One tick of the timebase (40_framesync.md R124). -/
def State.timebaseTick (s : State) : State :=
  if s.run ≠ .running then s
  else if 1 < s.tmoCnt.toNat then { s with tmoCnt := s.tmoCnt - 1 }
  else if s.cnt = 0 then s.takeOutcome .timeout
  else s.takeOutcome .partialRead

/-! ## The run state -/

/-- START (43_control_host.md R202). -/
def State.startRun (s : State) : State :=
  if s.run = .starting then { s with run := .running, tmoCnt := s.tmoReload } else s

/-- STOP (43_control_host.md R203). -/
def State.stopRun (s : State) : State :=
  match s.run with
  | .starting => { s with run := .stopped }
  | .running => { s with stopReq := true }
  | .stopped => s

/-- RESET: every architectural component at its reset value, no event, `rdata = 0` (70_reset_and_hazards.md R260). The
machine keeps its number of CAM entries; the environment keeps its pending inputs and what it has already seen. -/
def State.resetAll (s : State) : State :=
  { State.ofRules s.nRules with stim := s.stim, trace := s.trace, reads := s.reads }

/-! ## The configuration registers, under the write lock (10_state.md R39, 43_control_host.md R201) -/

/-- The effect of a configuration write only while `run = STARTING`. -/
def State.whileStarting (f : State → State) (s : State) : State :=
  if s.run = .starting then f s else s

/-- WR_CFG's effect: `layout <- v[0]` (43_control_host.md R204). -/
def State.setCfg (v : Word32) (s : State) : State := { s with layout := layoutOf (v.getLsbD 0) }

/-- The write-any-read-legal map of `TMO.RELOAD`: 0 is stored as 1 (10_state.md R33, 41_unpack.md R160(8)). -/
def legalReload (v : BitVec 8) : BitVec 8 := if v = 0 then 1 else v

/-- WR_TMO's effect: `tmo_reload` from `v[7:0]` (43_control_host.md R205). -/
def State.setTmo (v : Word32) (s : State) : State :=
  { s with tmoReload := legalReload (v.extractLsb' 0 8) }

/-- WR_CAMKEY's effect on its entry: `valid <- v[31]`, `key <- v[15:0]` (43_control_host.md R206). -/
def CamEntry.withKey (v : Word32) (e : CamEntry) : CamEntry :=
  { e with valid := v.getLsbD 31, key := v.extractLsb' 0 16 }

/-- WR_CAMDATA's effect on its entry: `chan <- v[31:16]`, `payl <- v[15:0]` (43_control_host.md R208). -/
def CamEntry.withData (v : Word32) (e : CamEntry) : CamEntry :=
  { e with chan := v.extractLsb' 16 16, payl := v.extractLsb' 0 16 }

/-- Entry `i` updated by `f`; an index beyond the last entry is reserved and changes nothing (10_state.md R38). -/
def State.updateCam (i : CamIndex) (f : CamEntry → CamEntry) (s : State) : State :=
  { s with cam := s.cam.modify i.toNat f }

/-- `RegWrite(s, a, v)`, by index (10_state.md R29, R30, 43_control_host.md R201). -/
def State.regWrite (a : Addr) (v : Word32) (s : State) : State :=
  if a = 0x00 then
    if v.getLsbD 1 then s.stopRun else if v.getLsbD 0 then s.startRun else s
  else if a = 0x02 then s.whileStarting (State.setCfg v)
  else if a = 0x03 then s.whileStarting (State.setTmo v)
  else if camAddr s.nRules a then
    if a.toNat % 2 = 0 then s.whileStarting (State.updateCam (camIndexOf a) (CamEntry.withKey v))
    else s.whileStarting (State.updateCam (camIndexOf a) (CamEntry.withData v))
  else s

/-! ## Cycles -/

/-- The stimulus the environment presents next; with none pending, an idle cycle (notes/assumptions/2.md). -/
def State.nextStimulus (s : State) : Stimulus :=
  match s.stim with
  | [] => ⟨0, 0⟩
  | x :: _ => x

/-- The start of a cycle: the stimulus is sampled, no event yet, `h_rdata` and the event data ports at 0
(43_control_host.md R200, R210, 10_state.md R45). -/
def State.beginCycle (s : State) : State :=
  { s with stim := s.stim.tail, out := [], rdata := 0, unp := .idle }

end Sys2Proof.Machine
end

