-- ==== Sys2Proof/Machine/FrameClass.lean ====
section
/-! DEFINITION. The meanings of the frame classes, formats Z and K (42_dispatch_cam.md): the events of a frame of that class.
The layout has done its part when it chose the class, "the strategy is chosen by the event's constructor" (R175), so
these meanings do not read it (notes/assumptions/5.md). -/

namespace Sys2Proof.Machine

/-- ZCLOSED: `INTENT(0, zone, 0, 0)` (42_dispatch_cam.md R178). -/
def execZclosed (F : Frame) (s : State) : Host.Outcome State Fault Refusal :=
  .next (s.emitFrame F (decodeEvent .bitfield F) (some (zoneIntent (frameZone F) 0)))

/-- ZOPEN: `INTENT(0, zone, 1, 0)` (42_dispatch_cam.md R179). -/
def execZopen (F : Frame) (s : State) : Host.Outcome State Fault Refusal :=
  .next (s.emitFrame F (decodeEvent .bitfield F) (some (zoneIntent (frameZone F) 1)))

/-- ZRSV_EC2: dropped (42_dispatch_cam.md R183). -/
def execZrsvEc2 (F : Frame) (s : State) : Host.Outcome State Fault Refusal :=
  .next (s.emitFrame F (decodeEvent .bitfield F) none)

/-- ZRSV_EC3: dropped (42_dispatch_cam.md R183). -/
def execZrsvEc3 (F : Frame) (s : State) : Host.Outcome State Fault Refusal :=
  .next (s.emitFrame F (decodeEvent .bitfield F) none)

/-- ZRSV_T1: dropped (42_dispatch_cam.md R183). -/
def execZrsvT1 (F : Frame) (s : State) : Host.Outcome State Fault Refusal :=
  .next (s.emitFrame F (decodeEvent .bitfield F) none)

/-- ZDROP: dropped (42_dispatch_cam.md R183, R184). -/
def execZdrop (F : Frame) (s : State) : Host.Outcome State Fault Refusal :=
  .next (s.emitFrame F (decodeEvent .bitfield F) none)

/-- KEVT: the CAM's answer for `F[31:16]`, hit (42_dispatch_cam.md R181) or miss (R182). -/
def execKevt (F : Frame) (s : State) : Host.Outcome State Fault Refusal :=
  .next (s.emitFrame F (decodeEvent .codeBytes F) ((camLookup s.cam (frameW0 F)).map tableIntent))

end Sys2Proof.Machine
end

