-- ==== Sys2Proof/Machine/HostRead.lean ====
section
/-! DEFINITION. The meanings of the host reads, format HW (43_control_host.md R210 to R219): "a pure function of the state at
the start of the cycle and the index". -/

namespace Sys2Proof.Machine

/-- RD_CTRL (43_control_host.md R211). -/
def execRdCtrl (s : State) : Host.Outcome State Fault Refusal := .next (s.hostReturn (ctrlWord s))

/-- RD_STATUS (43_control_host.md R212). -/
def execRdStatus (s : State) : Host.Outcome State Fault Refusal := .next (s.hostReturn (statusWord s))

/-- RD_CFG (43_control_host.md R213). -/
def execRdCfg (s : State) : Host.Outcome State Fault Refusal := .next (s.hostReturn (cfgWord s))

/-- RD_TMO (43_control_host.md R214). -/
def execRdTmo (s : State) : Host.Outcome State Fault Refusal := .next (s.hostReturn (tmoWord s))

/-- RD_BUF (43_control_host.md R215). -/
def execRdBuf (s : State) : Host.Outcome State Fault Refusal := .next (s.hostReturn (bufWord s))

/-- RD_ID (43_control_host.md R216). -/
def execRdId (s : State) : Host.Outcome State Fault Refusal := .next (s.hostReturn (idWord s))

/-- RD_CAMKEY (43_control_host.md R217). -/
def execRdCamkey (i : CamIndex) (s : State) : Host.Outcome State Fault Refusal :=
  .next (s.hostReturn (camkeyWord s i))

/-- RD_CAMDATA (43_control_host.md R218). -/
def execRdCamdata (i : CamIndex) (s : State) : Host.Outcome State Fault Refusal :=
  .next (s.hostReturn (camdataWord s i))

/-- RD_RSVD (43_control_host.md R219). -/
def execRdRsvd (a : Addr) (s : State) : Host.Outcome State Fault Refusal :=
  .next (s.hostReturn (reservedWord a))

end Sys2Proof.Machine
end

