-- ==== Sys2Proof/Machine/HostWrite.lean ====
section
/-! DEFINITION. The meanings of the host commands and writes, format HW (43_control_host.md R201 to R209). "No host write emits an
event" (R201). -/

namespace Sys2Proof.Machine

/-- STOP (43_control_host.md R203). -/
def execStop (s : State) : Host.Outcome State Fault Refusal := .next s.stopRun

/-- START (43_control_host.md R202). -/
def execStart (s : State) : Host.Outcome State Fault Refusal := .next s.startRun

/-- WR_CFG (43_control_host.md R204). -/
def execWrCfg (v : Word32) (s : State) : Host.Outcome State Fault Refusal :=
  .next (s.whileStarting (State.setCfg v))

/-- WR_TMO (43_control_host.md R205). -/
def execWrTmo (v : Word32) (s : State) : Host.Outcome State Fault Refusal :=
  .next (s.whileStarting (State.setTmo v))

/-- WR_CAMKEY (43_control_host.md R206). -/
def execWrCamkey (i : CamIndex) (v : Word32) (s : State) : Host.Outcome State Fault Refusal :=
  .next (s.whileStarting (State.updateCam i (CamEntry.withKey v)))

/-- WR_CAMDATA (43_control_host.md R208). -/
def execWrCamdata (i : CamIndex) (v : Word32) (s : State) : Host.Outcome State Fault Refusal :=
  .next (s.whileStarting (State.updateCam i (CamEntry.withData v)))

/-- WR_IGN: "nothing", "no bus error, no fault" (43_control_host.md R209). -/
def execWrIgn (_a : Addr) (_v : Word32) (s : State) : Host.Outcome State Fault Refusal := .next s

end Sys2Proof.Machine
end

