-- ==== Sys2Proof/Machine/Stream.lean ====
section
/-! DEFINITION. The meanings of the stream and reset operations, format SW (40_framesync.md, 70_reset_and_hazards.md R260,
43_control_host.md R220). -/

namespace Sys2Proof.Machine

/-- RESET (70_reset_and_hazards.md R260). -/
def execReset (s : State) : Host.Outcome State Fault Refusal := .next s.resetAll

/-- RXBYTE (40_framesync.md R120, R121, R122). -/
def execRxbyte (b : Byte) (s : State) : Host.Outcome State Fault Refusal := .next (s.acceptByte b)

/-- RXCLOSE (40_framesync.md R120, R125). -/
def execRxclose (s : State) : Host.Outcome State Fault Refusal := .next s.sourceClosed

/-- TICK (40_framesync.md R120, R124). -/
def execTick (s : State) : Host.Outcome State Fault Refusal := .next s.timebaseTick

/-- NOP: "changes nothing and emits nothing" (43_control_host.md R220). -/
def execNop (s : State) : Host.Outcome State Fault Refusal := .next s

end Sys2Proof.Machine
end

