-- ==== Sys2Proof/Machine/Unpack.lean ====
section
/-! DEFINITION. The meanings of the unpacker's slices (41_unpack.md R152 to R157): each drives its field's port. A slice that is
"Defined only under" one layout drives its port to 0 under the other (R165; notes/assumptions/4.md). -/

namespace Sys2Proof.Machine

/-- UNP.TYPE: `typeBit <- slice(w0, 12, 1)` (41_unpack.md R152). -/
def execUnpType (F : Frame) (s : State) : Host.Outcome State Fault Refusal :=
  .next (s.drive { s.unp with typeBit := if s.layout = .bitfield then frameType F else 0 })

/-- UNP.CODE: `eventCode <- slice(w0, 10, 2)` (41_unpack.md R153). -/
def execUnpCode (F : Frame) (s : State) : Host.Outcome State Fault Refusal :=
  .next (s.drive { s.unp with eventCode := if s.layout = .bitfield then frameCode F else 0 })

/-- UNP.ZONE: `zone <- slice(w0, 4, 5)` (41_unpack.md R154). -/
def execUnpZone (F : Frame) (s : State) : Host.Outcome State Fault Refusal :=
  .next (s.drive { s.unp with zone := if s.layout = .bitfield then frameZone F else 0 })

/-- UNP.HOURS: `hours <- slice(w1, 11, 5)`, "Defined under both layouts" (41_unpack.md R155). -/
def execUnpHours (F : Frame) (s : State) : Host.Outcome State Fault Refusal :=
  .next (s.drive { s.unp with hours := frameHours F })

/-- UNP.MINUTES: `minutes <- slice(w1, 4, 6)` under both layouts (41_unpack.md R156, R158). -/
def execUnpMinutes (F : Frame) (s : State) : Host.Outcome State Fault Refusal :=
  .next (s.drive { s.unp with minutes := frameMinutes F })

/-- UNP.KEY: `key <- codeHigh ‖ codeLow` (41_unpack.md R157). -/
def execUnpKey (F : Frame) (s : State) : Host.Outcome State Fault Refusal :=
  .next (s.drive { s.unp with
    key := if s.layout = .codeBytes then eventKey (frameByte0 F) (frameByte1 F) else 0 })

end Sys2Proof.Machine
end

