-- ==== Sys2Proof/Machine/Dispatch.lean ====
section
/-! DEFINITION. The meaning of every operation, one arm per constructor of Instr (30_encoding.md R104). -/

namespace Sys2Proof.Machine

def exec (i : Instr) (s : State) : Host.Outcome State Fault Refusal :=
  match i with
  | .reset => Sys2Proof.Machine.execReset s
  | .rxbyte b => Sys2Proof.Machine.execRxbyte b s
  | .rxclose => Sys2Proof.Machine.execRxclose s
  | .tick => Sys2Proof.Machine.execTick s
  | .nop => Sys2Proof.Machine.execNop s
  | .zclosed F => Sys2Proof.Machine.execZclosed F s
  | .zopen F => Sys2Proof.Machine.execZopen F s
  | .zrsvEc2 F => Sys2Proof.Machine.execZrsvEc2 F s
  | .zrsvEc3 F => Sys2Proof.Machine.execZrsvEc3 F s
  | .zrsvT1 F => Sys2Proof.Machine.execZrsvT1 F s
  | .zdrop F => Sys2Proof.Machine.execZdrop F s
  | .kevt F => Sys2Proof.Machine.execKevt F s
  | .stop => Sys2Proof.Machine.execStop s
  | .start => Sys2Proof.Machine.execStart s
  | .wrCfg v => Sys2Proof.Machine.execWrCfg v s
  | .wrTmo v => Sys2Proof.Machine.execWrTmo v s
  | .wrCamkey k v => Sys2Proof.Machine.execWrCamkey k v s
  | .wrCamdata k v => Sys2Proof.Machine.execWrCamdata k v s
  | .wrIgn a v => Sys2Proof.Machine.execWrIgn a v s
  | .rdCtrl => Sys2Proof.Machine.execRdCtrl s
  | .rdStatus => Sys2Proof.Machine.execRdStatus s
  | .rdCfg => Sys2Proof.Machine.execRdCfg s
  | .rdTmo => Sys2Proof.Machine.execRdTmo s
  | .rdBuf => Sys2Proof.Machine.execRdBuf s
  | .rdId => Sys2Proof.Machine.execRdId s
  | .rdCamkey k => Sys2Proof.Machine.execRdCamkey k s
  | .rdCamdata k => Sys2Proof.Machine.execRdCamdata k s
  | .rdRsvd a => Sys2Proof.Machine.execRdRsvd a s
  | .unpType F => Sys2Proof.Machine.execUnpType F s
  | .unpCode F => Sys2Proof.Machine.execUnpCode F s
  | .unpZone F => Sys2Proof.Machine.execUnpZone F s
  | .unpHours F => Sys2Proof.Machine.execUnpHours F s
  | .unpMinutes F => Sys2Proof.Machine.execUnpMinutes F s
  | .unpKey F => Sys2Proof.Machine.execUnpKey F s

end Sys2Proof.Machine
end

