-- ==== Sys2Proof/Machine/Cycle.lean ====
section
/-! DEFINITION. One clock cycle: the operations the stimulus holds, performed in order, each on the state the one before it left
(43_control_host.md R200, 60_exceptions.md R237). -/

namespace Sys2Proof.Machine

/-- Operations in order, each on the state the previous one left; the first that stops ends them. -/
def runOps : List Instr → State → Host.Outcome State Fault Refusal
  | [], s => .next s
  | i :: is, s =>
    match exec i s with
    | .next t => runOps is t
    | .fault r => .fault r
    | .refused r => .refused r

/-- The operations of the next cycle, as the decoder reads them from its stimulus words. -/
def State.fetchOps (s : State) : List Instr := decode s.nRules (.cycle s.nextStimulus)

/-- One clock cycle (43_control_host.md R200). -/
def cycle (s : State) : Host.Outcome State Fault Refusal := runOps s.fetchOps s.beginCycle

/-- `s` with `x` as the stimulus of the next cycle. -/
def State.present (x : Stimulus) (s : State) : State := { s with stim := x :: s.stim }

/-- `s` with a frame arriving: RUNNING, its first three bytes in the buffer, a full window left, the fourth byte on
`rx_data` of the next cycle (40_framesync.md R122; notes/assumptions/6.md). -/
def State.presentFrame (F : Frame) (s : State) : State :=
  { s.present ⟨streamWord false false false true (frameByte3 F), 0⟩ with
    run := .running
    cnt := 3
    buf0 := frameByte0 F
    buf1 := frameByte1 F
    buf2 := frameByte2 F
    tmoCnt := s.tmoReload }

/-- `s` with an operation's words where the next cycle reads them. -/
def State.presentWords (e : Encoding) (s : State) : State :=
  match e with
  | .cycle x => s.present x
  | .frame l F => { s.presentFrame F with layout := l }

end Sys2Proof.Machine
end

