-- ==== Sys2Proof/Machine/Step.lean ====
section
/-! DEFINITION. The step function: one clock cycle with the next pending stimulus (00_scope.md R12, 43_control_host.md R200). -/

namespace Sys2Proof.Machine

/-- One step of the machine is one clock cycle. -/
def step (s : State) : Host.Outcome State Fault Refusal := cycle s

/-- `s` with the operation of a table word placed so that the very next step runs it (notes/assumptions/6.md); a number
that is no word of the PFC is not placed. -/
def State.withFetchWord (s : State) (nbits w : Nat) : State :=
  match wordEncoding s.layout nbits w with
  | .ok e => s.presentWords e
  | .error _ => s

end Sys2Proof.Machine
end

