-- ==== Sys2Proof/Machine/Reference.lean ====
section
/-! DEFINITION. The cycle as 43_control_host.md R200 writes it, on the ports instead of on decoded operations: the record
`CycleInput` (00_scope.md R12) read off the ports (10_state.md R44), the phase functions (40_framesync.md R130), and register
accesses by index (`regRead`, `regWrite`). The machine's step decodes operations instead; that the two agree is a statement. -/

namespace Sys2Proof.Machine

/-- `CycleInput` (00_scope.md R12). -/
structure CycleInput where
  rst : Bool
  byte : Option Byte
  closed : Bool
  tick : Bool
  hostRd : Option Addr
  hostWr : Option (Addr × Word32)
deriving DecidableEq, Repr

/-- `CycleInput` read off the ports: `byte = some rx_data` iff `rx_valid = 1`, and so on (10_state.md R44), the ports at their
places in the stimulus words (30_encoding.md R100, R101). -/
def cycleInputOf (x : Stimulus) : CycleInput where
  rst := x.sw.getLsbD 11
  byte := if x.sw.getLsbD 8 then some (x.sw.extractLsb' 0 8) else none
  closed := x.sw.getLsbD 9
  tick := x.sw.getLsbD 10
  hostRd := if x.hw.getLsbD 40 then some (x.hw.extractLsb' 32 8) else none
  hostWr := if x.hw.getLsbD 41 then some (x.hw.extractLsb' 32 8, x.hw.extractLsb' 0 32) else none

/-- `rdata <- match i.host_rd with ...`, on the state it meets (43_control_host.md R200, R210). -/
def phaseRead (a : Option Addr) (s : State) : State :=
  match a with
  | none => s
  | some a => s.hostReturn (regRead s a)

/-- `phase_byte` (40_framesync.md R130). -/
def phaseByte (b : Option Byte) (s : State) : State :=
  match b with
  | none => s
  | some b => s.acceptByte b

/-- `phase_close` (40_framesync.md R130). -/
def phaseClose (closed : Bool) (s : State) : State := if closed then s.sourceClosed else s

/-- `phase_tick` (40_framesync.md R130). -/
def phaseTick (tick : Bool) (s : State) : State := if tick then s.timebaseTick else s

/-- `phase_host` (43_control_host.md R201). -/
def phaseHost (w : Option (Addr × Word32)) (s : State) : State :=
  match w with
  | none => s
  | some (a, v) => s.regWrite a v

/-- One cycle (43_control_host.md R200): "The phases run in this fixed order, each on the state the previous one left." -/
def cycleOf (i : CycleInput) (s : State) : State :=
  if i.rst then s.resetAll
  else phaseHost i.hostWr (phaseTick i.tick (phaseClose i.closed (phaseByte i.byte (phaseRead i.hostRd s))))

end Sys2Proof.Machine
end

