-- ==== Sys2Proof/Machine/Script.lean ====
section
/-! DEFINITION. The stimulus script notation and its pseudo-operations (30_encoding.md R105, R106), one stimulus a cycle. -/

namespace Sys2Proof.Script

/-- `NOP`. -/
def nop : Stimulus := ⟨0x000, 0⟩

/-- `RESET`. -/
def reset : Stimulus := ⟨0x800, 0⟩

/-- `BYTE 0xNN`. -/
def byte (b : Byte) : Stimulus := ⟨0x100 ||| b.setWidth 12, 0⟩

/-- `TICK`. -/
def tick : Stimulus := ⟨0x400, 0⟩

/-- `CLOSE`, in one cycle. -/
def close : Stimulus := ⟨0x200, 0⟩

/-- `WR` of `v` to the register at index `a`. -/
def wr (a : Addr) (v : Word32) : Stimulus := ⟨0, 0x20000000000 ||| (a.setWidth 42 <<< 32) ||| v.setWidth 42⟩

/-- `RD` of the register at index `a`. -/
def rd (a : Addr) : Stimulus := ⟨0, 0x10000000000 ||| (a.setWidth 42 <<< 32)⟩

/-- `START`, that is `WR CTRL, 0x1`. -/
def start : Stimulus := ⟨0, 0x20000000001⟩

/-- `STOP`, that is `WR CTRL, 0x2`. -/
def stop : Stimulus := ⟨0, 0x20000000002⟩

/-- "Several items on one line share the cycle." -/
def both (x y : Stimulus) : Stimulus := ⟨x.sw ||| y.sw, x.hw ||| y.hw⟩

/-- "A script that writes `CLOSE` once means the level stays 1 in every later cycle." -/
def heldClosed (xs : List Stimulus) : List Stimulus := xs.map (both close)

/-- `FRAME 0xAA 0xBB 0xCC 0xDD` (R106). -/
def frame (a b c d : Byte) : List Stimulus := [byte a, byte b, byte c, byte d]

/-- `RULE i, 0xHH, 0xLL, chan, payl` (R106). -/
def rule (i : CamIndex) (hh ll : Byte) (chan payl : Half) : List Stimulus :=
  [wr (camdataAddr i) (bitcat chan payl), wr (camkeyAddr i) (0x80000000 ||| (be16 hh ll).setWidth 32)]

/-- `IDLE n` (R106). -/
def idle (n : Nat) : List Stimulus := List.replicate n nop

/-- `TICKS n` (R106). -/
def ticks (n : Nat) : List Stimulus := List.replicate n tick

/-- `LAYOUT Z` and `LAYOUT K` (R106). -/
def layout : Layout → Stimulus
  | .bitfield => wr 0x02 0x0
  | .codeBytes => wr 0x02 0x1

/-- `TIMEOUT n` (R106). -/
def timeout (n : Word32) : Stimulus := wr 0x03 n

end Sys2Proof.Script
end

