-- ==== Sys2Proof/Machine/Ports.lean ====
section
/-! DEFINITION. The output ports of a cycle (10_state.md R45), read off the cycle's output list: every `*_valid` a pulse in the
cycle of the event, data 0 when it is not. -/

namespace Sys2Proof.Machine

/-- The output ports (10_state.md R45). -/
structure OutPorts where
  rawValid : Bool
  raw : Frame
  evValid : Bool
  evLayout : BitVec 1
  ev : EventPorts
  intValid : Bool
  intKind : BitVec 1
  intChan : Half
  intPayl : Half
  intIdx : BitVec 6
  timeout : Bool
  partValid : Bool
  partLen : BitVec 2
  partBytes : BitVec 24
  fatalValid : Bool
  fatalCode : BitVec 2
  run : BitVec 2
  rdata : Word32
deriving DecidableEq, Repr

/-- The frame of the `RAW` event in a list, if one is there. -/
def rawIn : List OutEvent → Option Frame
  | [] => none
  | .raw F :: _ => some F
  | _ :: es => rawIn es

/-- The event of the `DECODED` event in a list, if one is there. -/
def decodedIn : List OutEvent → Option DecodedEvent
  | [] => none
  | .decoded ev :: _ => some ev
  | _ :: es => decodedIn es

/-- The intent in a list, if one is there. -/
def intentIn : List OutEvent → Option Intent
  | [] => none
  | .intent i :: _ => some i
  | _ :: es => intentIn es

/-- The count and bytes of the `PARTIAL` event in a list, `b0 ‖ b1 ‖ b2`, if one is there. -/
def partialIn : List OutEvent → Option (BitVec 2 × BitVec 24)
  | [] => none
  | .partialFrame n b0 b1 b2 :: _ => some (n, bitcat (be16 b0 b1) b2)
  | _ :: es => partialIn es

/-- The code of the `FATAL` event in a list, if one is there. -/
def fatalIn : List OutEvent → Option (BitVec 2)
  | [] => none
  | .fatal c :: _ => some c
  | _ :: es => fatalIn es

/-- The ports of the cycle whose end `s` is (10_state.md R45). `o_ev_*` are the unpacker's ports. `run` is the level `o_run`:
R45 says only "level, no event", so which run state it shows in a cycle whose step changes `run` is open; the run held
AFTER the step is put beside that cycle's pulses (DESIGN CHOICE, unsafe: notes/assumptions/22.md). -/
def State.ports (s : State) : OutPorts where
  rawValid := (rawIn s.out).isSome
  raw := (rawIn s.out).getD 0
  evValid := (decodedIn s.out).isSome
  evLayout := ((decodedIn s.out).map fun ev => layoutBit ev.layout).getD 0
  ev := s.unp
  intValid := (intentIn s.out).isSome
  intKind := ((intentIn s.out).map fun i => i.kind.code).getD 0
  intChan := ((intentIn s.out).map Intent.chan).getD 0
  intPayl := ((intentIn s.out).map Intent.payl).getD 0
  intIdx := ((intentIn s.out).map Intent.idx).getD 0
  timeout := s.out.contains .timeout
  partValid := (partialIn s.out).isSome
  partLen := ((partialIn s.out).map Prod.fst).getD 0
  partBytes := ((partialIn s.out).map Prod.snd).getD 0
  fatalValid := (fatalIn s.out).isSome
  fatalCode := (fatalIn s.out).getD 0
  run := s.run.code
  rdata := s.rdata

end Sys2Proof.Machine
end

