-- ==== Sys2Proof/Safety.lean ====
section
/-! DEFINITION. What counts as a safe run of the PFC: the reachable-state invariants (10_state.md R43, R23, R26, R27), the run-state
machine (43_control_host.md R221), and the event lists one cycle may give (60_exceptions.md R238). -/

namespace Sys2Proof.Machine

/-- The architectural state, the record of 10_state.md R20 without the model's own fields. -/
def State.arch (s : State) :
    Run × Bool × BitVec 2 × Byte × Byte × Byte × BitVec 8 × Layout × BitVec 8 × List CamEntry :=
  (s.run, s.stopReq, s.cnt, s.buf0, s.buf1, s.buf2, s.tmoCnt, s.layout, s.tmoReload, s.cam)

/-- The configuration: what the host may write in STARTING (10_state.md R39). -/
def State.config (s : State) : Layout × BitVec 8 × List CamEntry := (s.layout, s.tmoReload, s.cam)

/-- The reachable-state invariants. `run` in {0, 1, 2}, R43(1), holds by its type. -/
structure State.Inv (s : State) : Prop where
  /-- R43(2): outside RUNNING nothing is held, no window is open, no stop waits -/
  quiet : s.run ≠ .running →
    s.cnt = 0 ∧ s.tmoCnt = 0 ∧ s.stopReq = false ∧ s.buf0 = 0 ∧ s.buf1 = 0 ∧ s.buf2 = 0
  /-- R43(3): in RUNNING a window is open -/
  window : s.run = .running → 1 ≤ s.tmoCnt.toNat ∧ s.tmoCnt.toNat ≤ s.tmoReload.toNat
  /-- R43(4) -/
  reload : 1 ≤ s.tmoReload.toNat
  /-- R43(5), R23: the buffer is 0 from `cnt` on -/
  buffer : (s.cnt = 0 → s.buf0 = 0) ∧ (s.cnt.toNat ≤ 1 → s.buf1 = 0) ∧ (s.cnt.toNat ≤ 2 → s.buf2 = 0)
  /-- `1 <= N_RULES <= 64` (00_scope.md R7) -/
  rules : Config.nRulesMin ≤ s.nRules ∧ s.nRules ≤ Config.nRulesMax
  /-- the model's own: the cycle's events are the last of the run's events -/
  seen : s.out <:+ s.trace

/-- The transitions of `run`, "all of them" (10_state.md R25), staying put among them. -/
def runMayGo : Run → Run → Bool
  | .starting, .starting => true
  | .starting, .running => true
  | .starting, .stopped => true
  | .running, .running => true
  | .running, .stopped => true
  | .running, .starting => false
  | .stopped, .stopped => true
  | .stopped, .starting => false
  | .stopped, .running => false

/-- The BYTE phase's events: nothing, or a frame's (60_exceptions.md R238). -/
def byteEvents : List OutEvent → Bool
  | [] => true
  | [.raw _, .decoded _] => true
  | [.raw _, .decoded _, .intent _] => true
  | _ => false

/-- The CLOSE phase's events (60_exceptions.md R238). -/
def closeEvents : List OutEvent → Bool
  | [] => true
  | [.fatal c] => c == 3
  | [.partialFrame _ _ _ _, .fatal c] => c == 3
  | _ => false

/-- The TICK phase's events (60_exceptions.md R238). -/
def tickEvents : List OutEvent → Bool
  | [] => true
  | [.timeout] => true
  | [.partialFrame _ _ _ _] => true
  | _ => false

/-- The event lists one cycle may give: the three phases' in their order (60_exceptions.md R238), the tick's only where the closure gave
none, "a closure that stops the run gates off the tick" (R237). -/
def CycleEvents (es : List OutEvent) : Prop :=
  ∃ bs cs ts, es = bs ++ cs ++ ts ∧ byteEvents bs = true ∧ closeEvents cs = true ∧ tickEvents ts = true ∧
    (cs = [] ∨ ts = [])

/-- A run of `k` cycles that no fault and no refusal ends. -/
def runCycles : Nat → State → Host.Outcome State Fault Refusal
  | 0, s => .next s
  | k + 1, s =>
    match step s with
    | .next t => runCycles k t
    | .fault r => .fault r
    | .refused r => .refused r

/-- A safe run: it goes on for `k` cycles and ends in a state with the invariants. -/
def SafeRun (k : Nat) (s : State) : Prop := ∃ t, runCycles k s = .next t ∧ t.Inv

end Sys2Proof.Machine
end

