-- ==== Sys2Proof/Certificates/Slice0/Obligations.lean ====
section
/-! DEFINITION. The statements for the provers, each of a numbered rule of spec/ or of what the rules together say of the
machine. A statement of the form `exec i s = .next { s with ... }` is the instruction's whole frame: every field it does
not name is unchanged. -/

open Sys2Proof Sys2Proof.Machine

/-! ## Reset and the empty cycle -/

/-- 70_reset_and_hazards.md R260: RESET gives `State0`, whatever else the cycle presents, and no event; and only reset leaves
STOPPED or changes the configuration after START. The clauses on `stim`, `trace`, `reads` are the model's own fields
(notes/assumptions/3.md). -/
def Obligations.ResetGivesState0 : Prop :=
  (∀ s : State, exec .reset s = .next
    { run := .starting, stopReq := false, cnt := 0, buf0 := 0, buf1 := 0, buf2 := 0, tmoCnt := 0,
      layout := .bitfield, tmoReload := 1, cam := List.replicate s.cam.length ⟨false, 0, 0, 0⟩,
      stim := s.stim, out := [], rdata := 0, unp := ⟨0, 0, 0, 0, 0, 0⟩, trace := s.trace, reads := s.reads }) ∧
  (∀ (s : State) (x : Stimulus) (rest : List Stimulus), s.stim = x :: rest → x.sw.getLsbD 11 = true →
    step s = .next
      { run := .starting, stopReq := false, cnt := 0, buf0 := 0, buf1 := 0, buf2 := 0, tmoCnt := 0,
        layout := .bitfield, tmoReload := 1, cam := List.replicate s.cam.length ⟨false, 0, 0, 0⟩,
        stim := rest, out := [], rdata := 0, unp := ⟨0, 0, 0, 0, 0, 0⟩, trace := s.trace, reads := s.reads }) ∧
  (∀ s t : State, step s = .next t →
    (s.run = .stopped ∧ t.run ≠ .stopped) ∨ (s.run ≠ .starting ∧ t.config ≠ s.config) →
    s.nextStimulus.sw.getLsbD 11 = true)

/-- 10_state.md R46: every component of the state after reset, and the ports (`N_RULES` at its default, R7). -/
def Obligations.ResetStateValues : Prop :=
  State.reset.run = .starting ∧ State.reset.stopReq = false ∧ State.reset.cnt = 0 ∧
  State.reset.buf0 = 0 ∧ State.reset.buf1 = 0 ∧ State.reset.buf2 = 0 ∧ State.reset.tmoCnt = 0 ∧
  State.reset.layout = .bitfield ∧ State.reset.tmoReload = 1 ∧
  State.reset.cam = List.replicate 16 ⟨false, 0, 0, 0⟩ ∧
  State.reset.ports = ⟨false, 0, false, 0, ⟨0, 0, 0, 0, 0, 0⟩, false, 0, 0, 0, 0, false, false, 0, 0, false, 0, 0, 0⟩

/-- 43_control_host.md R220: NOP, and every cycle whose stimulus is empty, changes nothing and emits nothing. -/
def Obligations.EmptyCycleChangesNothing : Prop :=
  (∀ s : State, exec .nop s = .next s) ∧
  (∀ s : State, s.nextStimulus.sw &&& 0xF00 = 0 → s.nextStimulus.hw.getLsbD 41 = false →
    s.nextStimulus.hw.getLsbD 40 = false →
    step s = .next { s with stim := s.stim.tail, out := [], rdata := 0, unp := ⟨0, 0, 0, 0, 0, 0⟩ })

/-! ## The frame synchronizer -/

/-- 40_framesync.md R120: outside RUNNING a byte, a tick and the closed level change nothing and give no event; a cycle
without reset does what the same cycle without its stream inputs does. -/
def Obligations.StreamGatedOutsideRunning : Prop :=
  ∀ s : State, s.run ≠ .running →
    (∀ b : Byte, exec (.rxbyte b) s = .next s ∧ exec .rxclose s = .next s ∧ exec .tick s = .next s) ∧
    (∀ (sw : StreamWord) (hw : HostWord) (rest : List Stimulus), sw.getLsbD 11 = false → s.stim = ⟨sw, hw⟩ :: rest →
      step s = step { s with stim := ⟨0, hw⟩ :: rest })

/-- 40_framesync.md R121: bytes 1 to 3 of a frame. -/
def Obligations.EarlyBytesAreStored : Prop :=
  ∀ (s : State) (b : Byte), s.run = .running → s.cnt.toNat ≤ 2 →
    exec (.rxbyte b) s = .next { s with
      buf0 := if s.cnt = 0 then b else s.buf0
      buf1 := if s.cnt = 1 then b else s.buf1
      buf2 := if s.cnt = 2 then b else s.buf2
      tmoCnt := if s.cnt = 0 then s.tmoReload else s.tmoCnt
      cnt := s.cnt + 1 }

/-- 40_framesync.md R122 with R133, R126 and R127: byte 4 completes the frame `F`, whose events come out in order, and the
epilogue follows. The clause on `unp` is the model's own (notes/assumptions/4.md). -/
def Obligations.FourthByteCompletesFrame : Prop :=
  ∀ (s : State) (b : Byte) (F : Frame), s.run = .running → s.cnt = 3 →
    F.extractLsb' 24 8 = s.buf0 → F.extractLsb' 16 8 = s.buf1 → F.extractLsb' 8 8 = s.buf2 → F.extractLsb' 0 8 = b →
    let ev := decodeEvent s.layout F
    let es := .raw F :: .decoded ev :: ((dispatchEvent s.cam ev).map OutEvent.intent).toList
    exec (.rxbyte b) s = .next { s with
      out := s.out ++ es
      trace := s.trace ++ es
      unp := ev.ports
      cnt := 0
      buf0 := 0
      buf1 := 0
      buf2 := 0
      run := if s.stopReq = true then .stopped else .running
      stopReq := false
      tmoCnt := if s.stopReq = true then 0 else s.tmoReload }

/-- 40_framesync.md R124: a tick counts down, or ends the read with TIMEOUT or PARTIAL and the epilogue. -/
def Obligations.TickCountsDownOrExpires : Prop :=
  ∀ s : State, s.run = .running →
    (1 < s.tmoCnt.toNat → exec .tick s = .next { s with tmoCnt := s.tmoCnt - 1 }) ∧
    (s.tmoCnt.toNat ≤ 1 →
      let e : OutEvent := if s.cnt = 0 then .timeout else .partialFrame s.cnt s.buf0 s.buf1 s.buf2
      exec .tick s = .next { s with
        out := s.out ++ [e]
        trace := s.trace ++ [e]
        cnt := 0
        buf0 := 0
        buf1 := 0
        buf2 := 0
        run := if s.stopReq = true then .stopped else .running
        stopReq := false
        tmoCnt := if s.stopReq = true then 0 else s.tmoReload })

/-- 40_framesync.md R125: closure reports the bytes held, then DISCONNECTED, and stops the run. -/
def Obligations.ClosureDisconnects : Prop :=
  ∀ s : State, s.run = .running →
    let es : List OutEvent :=
      if s.cnt = 0 then [.fatal 3] else [.partialFrame s.cnt s.buf0 s.buf1 s.buf2, .fatal 3]
    exec .rxclose s = .next { s with
      out := s.out ++ es
      trace := s.trace ++ es
      cnt := 0
      buf0 := 0
      buf1 := 0
      buf2 := 0
      run := .stopped
      stopReq := false
      tmoCnt := 0 }

/-! ## The unpacker -/

/-- 41_unpack.md R152, R153, R154: the slices of the bitfield layout, by the source's formulas on `w0 = F >> 16`. -/
def Obligations.ZoneSlicesExtract : Prop :=
  ∀ (s : State) (F : Frame), s.layout = .bitfield →
    exec (.unpType F) s = .next
      { s with unp := { s.unp with typeBit := BitVec.ofNat 1 (((F.toNat >>> 16) >>> 12) &&& 1) } } ∧
    exec (.unpCode F) s = .next
      { s with unp := { s.unp with eventCode := BitVec.ofNat 2 (((F.toNat >>> 16) >>> 10) &&& 0b11) } } ∧
    exec (.unpZone F) s = .next
      { s with unp := { s.unp with zone := BitVec.ofNat 5 (((F.toNat >>> 16) >>> 4) &&& 0b11111) } }

/-- 41_unpack.md R155, R156, R158: hours and minutes under both layouts, by the source's formulas on `w1 = F & 0xFFFF`. -/
def Obligations.TimeSlicesExtract : Prop :=
  ∀ (s : State) (F : Frame),
    exec (.unpHours F) s = .next
      { s with unp := { s.unp with hours := BitVec.ofNat 5 (((F.toNat % 2 ^ 16) >>> 11) &&& 0b11111) } } ∧
    exec (.unpMinutes F) s = .next
      { s with unp := { s.unp with minutes := BitVec.ofNat 6 (((F.toNat % 2 ^ 16) >>> 4) &&& 0b111111) } }

/-- 41_unpack.md R157: the code bytes, `frame[0]` and `frame[1]`, and the key, `256 * frame[0] + frame[1]`. -/
def Obligations.KeySliceExtracts : Prop :=
  (∀ (s : State) (F : Frame), s.layout = .codeBytes →
    exec (.unpKey F) s = .next
      { s with unp := { s.unp with
          key := BitVec.ofNat 16 (256 * (F.extractLsb' 24 8).toNat + (F.extractLsb' 16 8).toNat) } }) ∧
  (∀ F : Frame, ∃ (h : BitVec 5) (m : BitVec 6),
    decodeEvent .codeBytes F = .key (F.extractLsb' 24 8) (F.extractLsb' 16 8) h m)

/-- From 41_unpack.md R165 ("the fields of the other constructor are driven 0"), the model's choice for a slice under the
layout that does not have it (notes/assumptions/4.md). -/
def Obligations.SlicesDriveZeroUnderOtherLayout : Prop :=
  ∀ (s : State) (F : Frame),
    (s.layout = .codeBytes →
      exec (.unpType F) s = .next { s with unp := { s.unp with typeBit := 0 } } ∧
      exec (.unpCode F) s = .next { s with unp := { s.unp with eventCode := 0 } } ∧
      exec (.unpZone F) s = .next { s with unp := { s.unp with zone := 0 } }) ∧
    (s.layout = .bitfield → exec (.unpKey F) s = .next { s with unp := { s.unp with key := 0 } })

/-- 41_unpack.md R159: `decode` by the source's formulas. -/
def Obligations.DecodeFollowsFormulas : Prop :=
  ∀ F : Frame,
    let w0 := F.toNat >>> 16
    let w1 := F.toNat % 2 ^ 16
    let hours := BitVec.ofNat 5 ((w1 >>> 11) &&& 0b11111)
    let minutes := BitVec.ofNat 6 ((w1 >>> 4) &&& 0b111111)
    decodeEvent .bitfield F =
      .zone (BitVec.ofNat 1 ((w0 >>> 12) &&& 1)) (BitVec.ofNat 2 ((w0 >>> 10) &&& 0b11))
        (BitVec.ofNat 5 ((w0 >>> 4) &&& 0b11111)) hours minutes ∧
    decodeEvent .codeBytes F = .key (BitVec.ofNat 8 (w0 / 256)) (BitVec.ofNat 8 (w0 % 256)) hours minutes

/-- 41_unpack.md R164 with the masks of 30_encoding.md R95, and the converse: two frames decode alike exactly when they
agree outside the unused bits of the layout. -/
def Obligations.DecodeSeesFieldBitsOnly : Prop :=
  ∀ F G : Frame,
    (decodeEvent .bitfield F = decodeEvent .bitfield G ↔ F &&& 0x1DF0FBF0 = G &&& 0x1DF0FBF0) ∧
    (decodeEvent .codeBytes F = decodeEvent .codeBytes G ↔ F &&& 0xFFFFFBF0 = G &&& 0xFFFFFBF0)

/-- 41_unpack.md R163: the four laws of pack and decode. -/
def Obligations.PackAndDecodeInvert : Prop :=
  (∀ (t : BitVec 1) (e : BitVec 2) (z h : BitVec 5) (m : BitVec 6),
    decodeEvent .bitfield (packZ t e z h m) = .zone t e z h m) ∧
  (∀ (a b : Byte) (h : BitVec 5) (m : BitVec 6), decodeEvent .codeBytes (packK a b h m) = .key a b h m) ∧
  (∀ F : Frame, packEvent (decodeEvent .bitfield F) = F &&& 0x1DF0FBF0) ∧
  (∀ F : Frame, packEvent (decodeEvent .codeBytes F) = F &&& 0xFFFFFBF0)

/-! ## Frame classes and dispatch -/

/-- 30_encoding.md R96 and R97: the class of every frame, by its fields. -/
def Obligations.ClassesFollowFields : Prop :=
  ∀ F : Frame,
    let t := F.extractLsb' 28 1
    let e := F.extractLsb' 26 2
    let z := (F.extractLsb' 20 5).toNat
    (decodeFrame .bitfield F = .zclosed F ↔ t = 0 ∧ e = 0 ∧ 1 ≤ z ∧ z ≤ 8) ∧
    (decodeFrame .bitfield F = .zopen F ↔ t = 0 ∧ e = 1 ∧ 1 ≤ z ∧ z ≤ 8) ∧
    (decodeFrame .bitfield F = .zrsvEc2 F ↔ t = 0 ∧ e = 2) ∧
    (decodeFrame .bitfield F = .zrsvEc3 F ↔ t = 0 ∧ e = 3) ∧
    (decodeFrame .bitfield F = .zrsvT1 F ↔ t = 1) ∧
    (decodeFrame .bitfield F = .zdrop F ↔ t = 0 ∧ (e = 0 ∨ e = 1) ∧ (z = 0 ∨ 9 ≤ z)) ∧
    decodeFrame .codeBytes F = .kevt F

/-- 42_dispatch_cam.md R178 and R179: a valid zone frame's events, with its intent. -/
def Obligations.ZoneFramesPublish : Prop :=
  ∀ (s : State) (F : Frame),
    1 ≤ (F.extractLsb' 20 5).toNat → (F.extractLsb' 20 5).toNat ≤ 8 →
    let z := F.extractLsb' 20 5
    let h := F.extractLsb' 11 5
    let m := F.extractLsb' 4 6
    (F &&& 0x1C000000 = 0x00000000 →
      let es : List OutEvent := [.raw F, .decoded (.zone 0 0 z h m), .intent ⟨.static, BitVec.ofNat 16 z.toNat, 0, 0⟩]
      exec (.zclosed F) s = .next { s with out := s.out ++ es, trace := s.trace ++ es }) ∧
    (F &&& 0x1C000000 = 0x04000000 →
      let es : List OutEvent := [.raw F, .decoded (.zone 0 1 z h m), .intent ⟨.static, BitVec.ofNat 16 z.toNat, 1, 0⟩]
      exec (.zopen F) s = .next { s with out := s.out ++ es, trace := s.trace ++ es })

/-- 42_dispatch_cam.md R183: the Z drops give `RAW` and `DECODED` and no intent. -/
def Obligations.DroppedFramesGiveNoIntent : Prop :=
  ∀ (s : State) (F : Frame),
    let es : List OutEvent := [.raw F, .decoded (.zone (F.extractLsb' 28 1) (F.extractLsb' 26 2)
      (F.extractLsb' 20 5) (F.extractLsb' 11 5) (F.extractLsb' 4 6))]
    let t : State := { s with out := s.out ++ es, trace := s.trace ++ es }
    (F &&& 0x1C000000 = 0x08000000 → exec (.zrsvEc2 F) s = .next t) ∧
    (F &&& 0x1C000000 = 0x0C000000 → exec (.zrsvEc3 F) s = .next t) ∧
    (F &&& 0x10000000 = 0x10000000 → exec (.zrsvT1 F) s = .next t) ∧
    (F &&& 0x18000000 = 0x00000000 → (F.extractLsb' 20 5).toNat = 0 ∨ 9 ≤ (F.extractLsb' 20 5).toNat →
      exec (.zdrop F) s = .next t)

/-- 42_dispatch_cam.md R181: a keyed event that some valid entry matches publishes the entry of least index. -/
def Obligations.KeyedEventHitPublishes : Prop :=
  ∀ (s : State) (F : Frame) (i : Nat) (e : CamEntry),
    s.cam[i]? = some e → e.valid = true → e.key = F.extractLsb' 16 16 →
    (∀ (j : Nat) (d : CamEntry), j < i → s.cam[j]? = some d → d.valid = true → d.key ≠ F.extractLsb' 16 16) →
    let es : List OutEvent :=
      [.raw F, .decoded (.key (F.extractLsb' 24 8) (F.extractLsb' 16 8) (F.extractLsb' 11 5) (F.extractLsb' 4 6)),
        .intent ⟨.table, e.chan, e.payl, BitVec.ofNat 6 i⟩]
    exec (.kevt F) s = .next { s with out := s.out ++ es, trace := s.trace ++ es }

/-- 42_dispatch_cam.md R182: a keyed event that no valid entry matches gives no intent. -/
def Obligations.KeyedEventMissIsSilent : Prop :=
  ∀ (s : State) (F : Frame),
    (∀ e ∈ s.cam, e.valid = true → e.key ≠ F.extractLsb' 16 16) →
    let es : List OutEvent :=
      [.raw F, .decoded (.key (F.extractLsb' 24 8) (F.extractLsb' 16 8) (F.extractLsb' 11 5) (F.extractLsb' 4 6))]
    exec (.kevt F) s = .next { s with out := s.out ++ es, trace := s.trace ++ es }

/-- 42_dispatch_cam.md R180: the lookup answers the least index whose entry is valid and has the key, and nothing where
there is none. -/
def Obligations.LookupIsLeastMatch : Prop :=
  ∀ (cam : List CamEntry) (k : Half),
    (∀ (i : Nat) (e : CamEntry), camLookup cam k = some (i, e) ↔
      cam[i]? = some e ∧ e.valid = true ∧ e.key = k ∧
        ∀ (j : Nat) (d : CamEntry), j < i → cam[j]? = some d → ¬ (d.valid = true ∧ d.key = k)) ∧
    (camLookup cam k = none ↔ ∀ e ∈ cam, ¬ (e.valid = true ∧ e.key = k))

/-- 70_reset_and_hazards.md R275: a valid entry with the key of a valid entry of lower index can never win. -/
def Obligations.ShadowedRuleNeverWins : Prop :=
  ∀ (cam : List CamEntry) (i j : Nat) (d e : CamEntry), i < j → cam[i]? = some d → cam[j]? = some e →
    d.valid = true → e.valid = true → d.key = e.key → ∀ (k : Half) (c : CamEntry), camLookup cam k ≠ some (j, c)

/-- 42_dispatch_cam.md R189: the whole of dispatch, the table's branch by the index of the first matching entry. -/
def Obligations.DispatchDecides : Prop :=
  ∀ (cam : List CamEntry),
    (∀ (t : BitVec 1) (e : BitVec 2) (z h : BitVec 5) (m : BitVec 6), dispatchEvent cam (.zone t e z h m) =
      if t = 0 ∧ e.toNat ≤ 1 ∧ 1 ≤ z.toNat ∧ z.toNat ≤ 8
      then some ⟨.static, BitVec.ofNat 16 z.toNat, BitVec.ofNat 16 e.toNat, 0⟩ else none) ∧
    (∀ (a b : Byte) (h : BitVec 5) (m : BitVec 6), dispatchEvent cam (.key a b h m) =
      (cam.findIdx? fun d => d.valid && d.key == BitVec.ofNat 16 (256 * a.toNat + b.toNat)).bind fun i =>
        cam[i]?.map fun d => ⟨.table, d.chan, d.payl, BitVec.ofNat 6 i⟩)

/-- 42_dispatch_cam.md R187 and R175: the time fields never decide, and a bitfield frame is never looked up. -/
def Obligations.DispatchIgnoresTime : Prop :=
  (∀ (l : Layout) (cam : List CamEntry) (F G : Frame), F.extractLsb' 16 16 = G.extractLsb' 16 16 →
    dispatchEvent cam (decodeEvent l F) = dispatchEvent cam (decodeEvent l G)) ∧
  (∀ (cam cam' : List CamEntry) (F : Frame),
    dispatchEvent cam (decodeEvent .bitfield F) = dispatchEvent cam' (decodeEvent .bitfield F))

/-- 30_encoding.md R104 with 40_framesync.md R122, R133: the cycle of a frame's fourth byte does what the slices of its
layout, then its class, then the epilogue do: the machine's frame processing and the operations of the table agree. -/
def Obligations.FrameRunsItsOperations : Prop :=
  ∀ (s : State) (b : Byte), s.run = .running → s.cnt = 3 → s.unp = ⟨0, 0, 0, 0, 0, 0⟩ →
    ∃ t : State,
      runOps (decode s.nRules (.frame s.layout (frameOf s.buf0 s.buf1 s.buf2 b))) s = .next t ∧
      exec (.rxbyte b) s = .next { t with
        cnt := 0
        buf0 := 0
        buf1 := 0
        buf2 := 0
        run := if s.stopReq = true then .stopped else .running
        stopReq := false
        tmoCnt := if s.stopReq = true then 0 else s.tmoReload }

/-! ## Host operations -/

/-- 43_control_host.md R202. -/
def Obligations.StartEntersRunning : Prop :=
  ∀ s : State,
    (s.run = .starting → exec .start s = .next { s with run := .running, tmoCnt := s.tmoReload }) ∧
    (s.run ≠ .starting → exec .start s = .next s)

/-- 43_control_host.md R203. -/
def Obligations.StopHaltsOrDefers : Prop :=
  ∀ s : State,
    (s.run = .starting → exec .stop s = .next { s with run := .stopped }) ∧
    (s.run = .running → exec .stop s = .next { s with stopReq := true }) ∧
    (s.run = .stopped → exec .stop s = .next s)

/-- 43_control_host.md R204 and R205. -/
def Obligations.ConfigWritesStore : Prop :=
  ∀ (s : State) (v : Word32),
    (s.run = .starting →
      exec (.wrCfg v) s = .next { s with layout := if v.toNat % 2 = 1 then .codeBytes else .bitfield } ∧
      exec (.wrTmo v) s = .next
        { s with tmoReload := if v.toNat % 256 = 0 then 1 else BitVec.ofNat 8 (v.toNat % 256) }) ∧
    (s.run ≠ .starting → exec (.wrCfg v) s = .next s ∧ exec (.wrTmo v) s = .next s)

/-- 43_control_host.md R206 and R208: the entry's fields written, every other entry as before. -/
def Obligations.CamWritesStore : Prop :=
  ∀ (s : State) (i : CamIndex) (v : Word32) (e : CamEntry), s.cam[i.toNat]? = some e →
    (s.run = .starting →
      (∃ cam : List CamEntry, exec (.wrCamkey i v) s = .next { s with cam := cam } ∧
        cam[i.toNat]? = some { e with valid := v.getLsbD 31, key := BitVec.ofNat 16 (v.toNat % 2 ^ 16) } ∧
        ∀ j : Nat, j ≠ i.toNat → cam[j]? = s.cam[j]?) ∧
      (∃ cam : List CamEntry, exec (.wrCamdata i v) s = .next { s with cam := cam } ∧
        cam[i.toNat]? =
          some { e with chan := BitVec.ofNat 16 (v.toNat / 2 ^ 16), payl := BitVec.ofNat 16 (v.toNat % 2 ^ 16) } ∧
        ∀ j : Nat, j ≠ i.toNat → cam[j]? = s.cam[j]?)) ∧
    (s.run ≠ .starting → exec (.wrCamkey i v) s = .next s ∧ exec (.wrCamdata i v) s = .next s)

/-- From 10_state.md R38: the model's meaning of a CAM write term beyond the last entry (notes/assumptions/11.md). -/
def Obligations.CamWritesBeyondRulesIgnored : Prop :=
  ∀ (s : State) (i : CamIndex) (v : Word32), s.nRules ≤ i.toNat →
    exec (.wrCamkey i v) s = .next s ∧ exec (.wrCamdata i v) s = .next s

/-- 43_control_host.md R209, and what makes a write one (30_encoding.md R102). -/
def Obligations.IgnoredWritesDoNothing : Prop :=
  (∀ (s : State) (a : Addr) (v : Word32), exec (.wrIgn a v) s = .next s) ∧
  (∀ (n : Nat) (a : Addr) (v : Word32), decodeWrite n (hostWord true false a v) = some (.wrIgn a v) ↔
    ¬ (a = 0x00 ∧ v.toNat % 4 ≠ 0) ∧ a ≠ 0x02 ∧ a ≠ 0x03 ∧ ¬ (0x40 ≤ a.toNat ∧ a.toNat < 0x40 + 2 * n))

/-- 43_control_host.md R211, R216, R219. -/
def Obligations.ConstantReads : Prop :=
  ∀ (s : State) (a : Addr),
    exec .rdCtrl s = .next { s with rdata := 0, reads := s.reads ++ [0] } ∧
    (s.nRules ≤ 64 → exec .rdId s = .next
      { s with rdata := BitVec.ofNat 32 (0x400 + s.nRules), reads := s.reads ++ [BitVec.ofNat 32 (0x400 + s.nRules)] }) ∧
    exec (.rdRsvd a) s = .next { s with rdata := 0, reads := s.reads ++ [0] }

/-- 43_control_host.md R212, R213, R214, R215: each read is a view of the state and changes nothing of it. -/
def Obligations.StateReads : Prop :=
  ∀ s : State,
    let status : Word32 := BitVec.ofNat 32 (s.tmoCnt.toNat * 256 + (if s.stopReq = true then 16 else 0) +
      s.cnt.toNat * 4 + (match s.run with | .starting => 0 | .running => 1 | .stopped => 2))
    let cfg : Word32 := if s.layout = .codeBytes then 1 else 0
    let tmo : Word32 := BitVec.ofNat 32 s.tmoReload.toNat
    let buf : Word32 := BitVec.ofNat 32 (s.buf0.toNat * 2 ^ 24 + s.buf1.toNat * 2 ^ 16 + s.buf2.toNat * 2 ^ 8)
    exec .rdStatus s = .next { s with rdata := status, reads := s.reads ++ [status] } ∧
    exec .rdCfg s = .next { s with rdata := cfg, reads := s.reads ++ [cfg] } ∧
    exec .rdTmo s = .next { s with rdata := tmo, reads := s.reads ++ [tmo] } ∧
    exec .rdBuf s = .next { s with rdata := buf, reads := s.reads ++ [buf] }

/-- 43_control_host.md R217 and R218. -/
def Obligations.CamReads : Prop :=
  ∀ (s : State) (i : CamIndex) (e : CamEntry), s.cam[i.toNat]? = some e →
    let k : Word32 := BitVec.ofNat 32 ((if e.valid = true then 2 ^ 31 else 0) + e.key.toNat)
    let d : Word32 := BitVec.ofNat 32 (e.chan.toNat * 2 ^ 16 + e.payl.toNat)
    exec (.rdCamkey i) s = .next { s with rdata := k, reads := s.reads ++ [k] } ∧
    exec (.rdCamdata i) s = .next { s with rdata := d, reads := s.reads ++ [d] }

/-- From 10_state.md R38: the model's meaning of a CAM read term beyond the last entry (notes/assumptions/11.md). -/
def Obligations.CamReadsBeyondRulesAreZero : Prop :=
  ∀ (s : State) (i : CamIndex), s.nRules ≤ i.toNat →
    exec (.rdCamkey i) s = .next { s with rdata := 0, reads := s.reads ++ [0] } ∧
    exec (.rdCamdata i) s = .next { s with rdata := 0, reads := s.reads ++ [0] }

/-- 20_memory.md R77, 43_control_host.md R210: a read returns the register's value in the state at the start of the cycle,
whatever byte, closure, tick and write the cycle holds; without one `h_rdata` is 0. -/
def Obligations.ReadsSeeStartOfCycle : Prop :=
  ∀ s : State, s.nextStimulus.sw.getLsbD 11 = false → ∃ t : State, step s = .next t ∧
    (s.nextStimulus.hw.getLsbD 40 = true →
      t.rdata = regRead s (s.nextStimulus.hw.extractLsb' 32 8) ∧ t.reads = s.reads ++ [t.rdata]) ∧
    (s.nextStimulus.hw.getLsbD 40 = false → t.rdata = 0 ∧ t.reads = s.reads)

/-! ## The machine -/

/-- 00_scope.md R12: the step is total, no cycle ends in a fault or a refusal. -/
def Obligations.EveryCycleCompletes : Prop := ∀ s : State, ∃ t : State, step s = .next t

/-- A step runs the decoded operation: with one operation's words as the cycle's stimulus, the step is `exec` of it at
the start of that cycle (43_control_host.md R200). -/
def Obligations.StepRunsDecodedOperation : Prop :=
  ∀ (s : State) (i : Instr) (x : Stimulus) (rest : List Stimulus),
    i.kind = .cycle → i.wellFormed s.nRules = true → encode i = .cycle x → s.stim = x :: rest →
    step s = exec i { s with stim := rest, out := [], rdata := 0, unp := ⟨0, 0, 0, 0, 0, 0⟩ }

/-- 43_control_host.md R200: the step, which decodes operations by the masks of the table, is the phases on the ports in
their fixed order, each on the state the one before left. -/
def Obligations.StepIsPhasesInOrder : Prop :=
  ∀ s : State, step s = .next (cycleOf (cycleInputOf s.nextStimulus)
    { s with stim := s.stim.tail, out := [], rdata := 0, unp := ⟨0, 0, 0, 0, 0, 0⟩ })

/-- 10_state.md R43: the invariants hold in the state after reset. -/
def Obligations.ResetStateHasInvariants : Prop := State.reset.Inv

/-- 10_state.md R43(1) to (5), R23, R26, R27: every step keeps the reachable-state invariants. -/
def Obligations.StepKeepsInvariants : Prop := ∀ s t : State, s.Inv → step s = .next t → t.Inv

/-- 10_state.md R39, R43(6), 70_reset_and_hazards.md R273: outside STARTING no cycle without reset changes the configuration. That
RESET is the exception is read from R260 (notes/assumptions/10.md). -/
def Obligations.ConfigFrozenAfterStart : Prop :=
  ∀ s t : State, s.run ≠ .starting → s.nextStimulus.sw.getLsbD 11 = false → step s = .next t → t.config = s.config

/-- 43_control_host.md R207: STOPPED is final until reset, and reads still work. -/
def Obligations.StoppedIsFinal : Prop :=
  ∀ s : State, s.run = .stopped →
    (s.nextStimulus.sw.getLsbD 11 = false → ∃ t : State, step s = .next t ∧ t.arch = s.arch ∧ t.out = [] ∧
      t.trace = s.trace ∧
      (s.nextStimulus.hw.getLsbD 40 = true → t.rdata = regRead s (s.nextStimulus.hw.extractLsb' 32 8))) ∧
    (s.nextStimulus.sw.getLsbD 11 = true → ∃ t : State, step s = .next t ∧ t.run = .starting)

/-- 10_state.md R25, 43_control_host.md R221: the run state's transitions, all of them, and what causes each. -/
def Obligations.RunStateTransitions : Prop :=
  ∀ s t : State, step s = .next t →
    let sw := s.nextStimulus.sw
    let hw := s.nextStimulus.hw
    let ctrl : Prop := hw.getLsbD 41 = true ∧ hw.extractLsb' 32 8 = 0x00#8
    (sw.getLsbD 11 = true → t.run = .starting) ∧
    (sw.getLsbD 11 = false →
      runMayGo s.run t.run = true ∧
      (s.run = .starting →
        (t.run = .running ↔ ctrl ∧ hw.getLsbD 0 = true ∧ hw.getLsbD 1 = false) ∧
        (t.run = .stopped ↔ ctrl ∧ hw.getLsbD 1 = true)) ∧
      (s.run = .running → t.run = .stopped → sw.getLsbD 9 = true ∨ s.stopReq = true))

/-- 60_exceptions.md R238, R237, 20_memory.md R73: a cycle's events come in the order of the phases and are the next of the run's. -/
def Obligations.CycleEventsInOrder : Prop :=
  ∀ s t : State, step s = .next t → CycleEvents t.out ∧ t.trace = s.trace ++ t.out

/-- 60_exceptions.md R231, R232, R233, R248: where each event can come from. -/
def Obligations.EventsHaveTheirCause : Prop :=
  ∀ s t : State, step s = .next t →
    let sw := s.nextStimulus.sw
    (∀ e ∈ t.out, s.run = .running ∧ sw.getLsbD 11 = false) ∧
    (∀ c, .fatal c ∈ t.out → c = 3 ∧ sw.getLsbD 9 = true ∧ t.run = .stopped) ∧
    (.timeout ∈ t.out → sw.getLsbD 10 = true ∧ sw.getLsbD 9 = false) ∧
    (∀ n b0 b1 b2, .partialFrame n b0 b1 b2 ∈ t.out → n ≠ 0 ∧ (sw.getLsbD 10 = true ∨ sw.getLsbD 9 = true)) ∧
    (∀ F, .raw F ∈ t.out → sw.getLsbD 8 = true ∧ s.cnt = 3)

/-- 10_state.md R45, 41_unpack.md R165: the event ports carry the cycle's decoded event flattened, 0 where there is none,
and `o_ev_valid` is always equal to `o_raw_valid`. -/
def Obligations.EventPortsCarryDecodedEvent : Prop :=
  ∀ s t : State, step s = .next t →
    (∀ ev, .decoded ev ∈ t.out → t.ports.evLayout = layoutBit ev.layout ∧ t.ports.ev = ev.ports) ∧
    ((∀ ev, .decoded ev ∉ t.out) → t.ports.evLayout = 0 ∧ t.ports.ev = ⟨0, 0, 0, 0, 0, 0⟩) ∧
    t.ports.evValid = t.ports.rawValid

/-! ## Runs of many cycles -/

/-- 40_framesync.md R131(1): one to three bytes and then a window of ticks give exactly one PARTIAL, no publish, and a fresh
frame. -/
def Obligations.ShortFrameGivesOnePartial : Prop :=
  ∀ (s : State) (bs : List Byte) (rest : List Stimulus), s.Inv → s.run = .running → s.cnt = 0 → s.stopReq = false →
    1 ≤ bs.length → bs.length ≤ 3 → s.stim = bs.map Script.byte ++ Script.ticks s.tmoReload.toNat ++ rest →
    ∃ t : State, runCycles (bs.length + s.tmoReload.toNat) s = .next t ∧
      t.trace = s.trace ++ [.partialFrame (BitVec.ofNat 2 bs.length) (bs.getD 0 0) (bs.getD 1 0) (bs.getD 2 0)] ∧
      t.run = .running ∧ t.cnt = 0 ∧ t.buf0 = 0 ∧ t.buf1 = 0 ∧ t.buf2 = 0 ∧ t.tmoCnt = s.tmoReload ∧ t.stim = rest

/-- 40_framesync.md R131(2): four bytes with fewer than `tmo_reload` ticks between the first and the fourth give exactly the
events of their one frame. -/
def Obligations.FrameInsideItsWindow : Prop :=
  ∀ (s : State) (b0 b1 b2 b3 : Byte) (n1 n2 n3 : Nat) (rest : List Stimulus),
    s.run = .running → s.cnt = 0 → s.stopReq = false → n1 + n2 + n3 < s.tmoReload.toNat →
    s.stim = Script.byte b0 :: (Script.ticks n1 ++ Script.byte b1 :: (Script.ticks n2 ++ Script.byte b2 ::
      (Script.ticks n3 ++ Script.byte b3 :: rest))) →
    let F := frameOf b0 b1 b2 b3
    let ev := decodeEvent s.layout F
    ∃ t : State, runCycles (4 + n1 + n2 + n3) s = .next t ∧
      t.trace = s.trace ++ .raw F :: .decoded ev :: ((dispatchEvent s.cam ev).map OutEvent.intent).toList ∧
      t.run = .running ∧ t.cnt = 0 ∧ t.tmoCnt = s.tmoReload ∧ t.config = s.config ∧ t.stim = rest

/-- 40_framesync.md R131(3): with no bytes every `tmo_reload`-th tick gives one TIMEOUT and nothing else, for ever. -/
def Obligations.IdleStreamTimesOutForever : Prop :=
  ∀ (s : State) (m : Nat) (rest : List Stimulus), s.run = .running → s.cnt = 0 → s.stopReq = false →
    s.buf0 = 0 → s.buf1 = 0 → s.buf2 = 0 → s.tmoCnt = s.tmoReload → 1 ≤ s.tmoReload.toNat →
    s.stim = Script.ticks (m * s.tmoReload.toNat) ++ rest →
    ∃ t : State, runCycles (m * s.tmoReload.toNat) s = .next t ∧
      t.trace = s.trace ++ List.replicate m .timeout ∧ t.arch = s.arch ∧ t.stim = rest

/-- 70_reset_and_hazards.md R274, for a read-3 in flight: once a stop is requested, ticks to the end of the window stop the run,
whatever else the cycles hold (bytes, closure, host accesses) but reset. With `cnt = 0` the bound is not the rule's
(notes/assumptions/19.md). -/
def Obligations.RequestedStopArrives : Prop :=
  ∀ s : State, s.Inv → s.run = .running → s.stopReq = true → s.cnt ≠ 0 → s.tmoCnt.toNat ≤ s.stim.length →
    (∀ x ∈ s.stim.take s.tmoCnt.toNat, x.sw.getLsbD 11 = false ∧ x.sw.getLsbD 10 = true) →
    ∃ t : State, runCycles s.tmoCnt.toNat s = .next t ∧ t.run = .stopped

/-! ## Encodings -/

/-- 30_encoding.md R96, R97, R100 to R104: decoding an encoded operation gives it back, every operand at every value: a cycle's
operation alone, a frame's class, a slice among those of its layout. -/
def Obligations.DecodeEncodeAgree : Prop :=
  ∀ (n : Nat) (i : Instr), i.wellFormed n = true →
    match i.kind with
    | .cycle => decode n (encode i) = [i]
    | .frameClass => ∃ l F, encode i = .frame l F ∧ decode n (encode i) = decodeSlices l F ++ [i]
    | .slice => i ∈ decode n (encode i)

/-- 30_encoding.md R96, R102, R103: whatever words come, every operation decoded from them is one of a PFC with `n` entries. -/
def Obligations.DecodedOperationsAreWellFormed : Prop :=
  ∀ (n : Nat) (e : Encoding) (i : Instr), i ∈ decode n e → i.wellFormed n = true

/-- Words written out in 30_encoding.md R105 and in the vectors of 95_test_vectors.md decode to the operations they stand for. -/
def Obligations.SampleWordsDecode : Prop :=
  decode 16 (.cycle ⟨0x800, 0⟩) = [.reset] ∧
  decode 16 (.cycle ⟨0x51E, 0⟩) = [.rxbyte 0x1E, .tick] ∧
  decode 16 (.cycle ⟨0x000, 0x20300000002⟩) = [.wrTmo 0x2] ∧
  decode 16 (.cycle ⟨0x000, 0x14200000000⟩) = [.rdCamkey 1] ∧
  decodeFrame .bitfield 0x0011081E = .zclosed 0x0011081E ∧
  decodeFrame .bitfield 0x18100000 = .zrsvT1 0x18100000
end

