-- ==== Sys2Proof/Laws/Bits.lean ====
section
/-! SUPPORT. Concatenation bit by bit, and the slices of a frame put together from bytes. -/

namespace Sys2Proof

theorem bitcat_getLsbD {a b n : Nat} (hi : BitVec a) (lo : BitVec b) (i : Nat) :
    (bitcat hi lo : BitVec n).getLsbD i =
      (decide (i < n) && if i < b then lo.getLsbD i else hi.getLsbD (i - b)) := by
  by_cases h1 : i < n <;> by_cases h2 : i < b <;>
    simp [bitcat, h1, h2, BitVec.getLsbD_or, BitVec.getLsbD_shiftLeft, BitVec.getLsbD_setWidth]
  all_goals first
    | exact BitVec.getLsbD_of_ge lo i (by omega)
    | (by_cases h3 : i - b < n
       · simp [BitVec.getLsbD_of_ge lo i (by omega)]
       · omega)

theorem bitcat_and {a b n : Nat} (h h' : BitVec a) (l l' : BitVec b) :
    (bitcat h l : BitVec n) &&& bitcat h' l' = bitcat (h &&& h') (l &&& l') := by
  apply BitVec.eq_of_getLsbD_eq
  intro i hi
  simp only [BitVec.getLsbD_and, bitcat_getLsbD]
  by_cases h2 : i < b <;> simp [hi, h2]

/-- The low part of a concatenation that fits its place. -/
theorem bitcat_low {a b n : Nat} (hi : BitVec a) (lo : BitVec b) (hn : b ≤ n) :
    (bitcat hi lo : BitVec n).extractLsb' 0 b = lo := by
  apply BitVec.eq_of_getLsbD_eq
  intro i h
  simp only [BitVec.getLsbD_extractLsb', bitcat_getLsbD]
  simp [h, show i < n by omega]

/-- The high part of a concatenation that fits its place. -/
theorem bitcat_high {a b n : Nat} (hi : BitVec a) (lo : BitVec b) (hn : a + b ≤ n) :
    (bitcat hi lo : BitVec n).extractLsb' b a = hi := by
  apply BitVec.eq_of_getLsbD_eq
  intro i h
  simp only [BitVec.getLsbD_extractLsb', bitcat_getLsbD]
  simp [h, show b + i < n by omega]

/-- A word is the concatenation of its two parts. -/
theorem bitcat_eta {a b n : Nat} (w : BitVec n) (hn : a + b = n) :
    bitcat (w.extractLsb' b a) (w.extractLsb' 0 b) = w := by
  apply BitVec.eq_of_getLsbD_eq
  intro i h
  rw [bitcat_getLsbD]
  by_cases h2 : i < b
  · simp only [BitVec.getLsbD_extractLsb']
    simp [h2, h]
  · simp only [BitVec.getLsbD_extractLsb']
    simp [h2, h, show i - b < a by omega, show b + (i - b) = i by omega]

/-- Concatenations that fit are equal exactly when their parts are. -/
theorem bitcat_inj {a b n : Nat} {h h' : BitVec a} {l l' : BitVec b} (hn : a + b ≤ n) :
    (bitcat h l : BitVec n) = bitcat h' l' ↔ h = h' ∧ l = l' := by
  constructor
  · intro e
    refine ⟨?_, ?_⟩
    · have := congrArg (fun w : BitVec n => w.extractLsb' b a) e
      simpa [bitcat_high _ _ hn] using this
    · have := congrArg (fun w : BitVec n => w.extractLsb' 0 b) e
      simpa [bitcat_low _ _ (show b ≤ n by omega)] using this
  · rintro ⟨rfl, rfl⟩
    rfl

@[simp] theorem frameByte0_frameOf (b0 b1 b2 b3 : Byte) : frameByte0 (frameOf b0 b1 b2 b3) = b0 := by
  apply BitVec.eq_of_getLsbD_eq
  intro i h
  simp only [frameByte0, frameOf, be16, BitVec.getLsbD_extractLsb', bitcat_getLsbD]
  simp [h, show 24 + i < 32 by omega, show ¬ 24 + i < 16 by omega, show 24 + i - 16 = 8 + i by omega,
    show 8 + i < 16 by omega]

@[simp] theorem frameByte1_frameOf (b0 b1 b2 b3 : Byte) : frameByte1 (frameOf b0 b1 b2 b3) = b1 := by
  apply BitVec.eq_of_getLsbD_eq
  intro i h
  simp only [frameByte1, frameOf, be16, BitVec.getLsbD_extractLsb', bitcat_getLsbD]
  simp [h, show 16 + i < 32 by omega, show i < 16 by omega]

@[simp] theorem frameByte2_frameOf (b0 b1 b2 b3 : Byte) : frameByte2 (frameOf b0 b1 b2 b3) = b2 := by
  apply BitVec.eq_of_getLsbD_eq
  intro i h
  simp only [frameByte2, frameOf, be16, BitVec.getLsbD_extractLsb', bitcat_getLsbD]
  simp [h, show 8 + i < 32 by omega, show 8 + i < 16 by omega]

@[simp] theorem frameByte3_frameOf (b0 b1 b2 b3 : Byte) : frameByte3 (frameOf b0 b1 b2 b3) = b3 := by
  apply BitVec.eq_of_getLsbD_eq
  intro i h
  simp only [frameByte3, frameOf, be16, BitVec.getLsbD_extractLsb', bitcat_getLsbD]
  simp [h, show i < 32 by omega, show i < 16 by omega]

/-- `w0 = F[31:16]` (41_unpack.md R150). -/
theorem frameW0_eq (F : Frame) : frameW0 F = F.extractLsb' 16 16 := by
  apply BitVec.eq_of_getLsbD_eq
  intro i h
  simp only [frameW0, be16, frameByte0, frameByte1, bitcat_getLsbD, BitVec.getLsbD_extractLsb']
  by_cases h1 : i < 8
  · simp [h1, h]
  · simp [h1, h, show i - 8 < 8 by omega, show 24 + (i - 8) = 16 + i by omega]

/-- `w1 = F[15:0]` (41_unpack.md R150). -/
theorem frameW1_eq (F : Frame) : frameW1 F = F.extractLsb' 0 16 := by
  apply BitVec.eq_of_getLsbD_eq
  intro i h
  simp only [frameW1, be16, frameByte2, frameByte3, bitcat_getLsbD, BitVec.getLsbD_extractLsb']
  by_cases h1 : i < 8
  · simp [h1, h]
  · simp [h1, h, show i - 8 < 8 by omega, show 8 + (i - 8) = i by omega]

/-! ## The fields at their places in F (30_encoding.md R91, R92) -/

theorem frameType_eq (F : Frame) : frameType F = F.extractLsb' 28 1 := by
  apply BitVec.eq_of_getLsbD_eq
  intro i h
  simp only [frameType, slice, frameW0_eq, BitVec.getLsbD_extractLsb']
  simp [h, show 12 + i < 16 by omega, show 16 + (12 + i) = 28 + i by omega]

theorem frameCode_eq (F : Frame) : frameCode F = F.extractLsb' 26 2 := by
  apply BitVec.eq_of_getLsbD_eq
  intro i h
  simp only [frameCode, slice, frameW0_eq, BitVec.getLsbD_extractLsb']
  simp [h, show 10 + i < 16 by omega, show 16 + (10 + i) = 26 + i by omega]

theorem frameZone_eq (F : Frame) : frameZone F = F.extractLsb' 20 5 := by
  apply BitVec.eq_of_getLsbD_eq
  intro i h
  simp only [frameZone, slice, frameW0_eq, BitVec.getLsbD_extractLsb']
  simp [h, show 4 + i < 16 by omega, show 16 + (4 + i) = 20 + i by omega]

theorem frameHours_eq (F : Frame) : frameHours F = F.extractLsb' 11 5 := by
  apply BitVec.eq_of_getLsbD_eq
  intro i h
  simp only [frameHours, slice, frameW1_eq, BitVec.getLsbD_extractLsb']
  simp [h, show 11 + i < 16 by omega]

theorem frameMinutes_eq (F : Frame) : frameMinutes F = F.extractLsb' 4 6 := by
  apply BitVec.eq_of_getLsbD_eq
  intro i h
  simp only [frameMinutes, slice, frameW1_eq, BitVec.getLsbD_extractLsb']
  simp [h, show 4 + i < 16 by omega]

end Sys2Proof
end

