-- ==== Sys2Proof/Laws/Decode.lean ====
section
/-! SUPPORT. The stimulus words by their ports: what a mask-and-match row says of packed words, and the decoder on them. -/

namespace Sys2Proof

theorem ofBool_inj {x y : Bool} : BitVec.ofBool x = BitVec.ofBool y ↔ x = y := by
  cases x <;> cases y <;> decide

theorem ofBool_and (x y : Bool) : BitVec.ofBool x &&& BitVec.ofBool y = BitVec.ofBool (x && y) := by
  cases x <;> cases y <;> decide

/-! ## Host words -/

@[simp] theorem hostData_hostWord (we re : Bool) (a : Addr) (v : Word32) : hostData (hostWord we re a v) = v :=
  bitcat_low _ _ (by decide)

@[simp] theorem hostAddr_hostWord (we re : Bool) (a : Addr) (v : Word32) : hostAddr (hostWord we re a v) = a := by
  apply BitVec.eq_of_getLsbD_eq
  intro i h
  simp only [hostAddr, hostWord, BitVec.getLsbD_extractLsb', bitcat_getLsbD]
  simp [h, show 32 + i < 42 by omega, show i < 10 by omega]

@[simp] theorem hostWord_we (we re : Bool) (a : Addr) (v : Word32) : (hostWord we re a v).getLsbD 41 = we := by
  simp only [hostWord, bitcat_getLsbD]; simp

@[simp] theorem hostWord_re (we re : Bool) (a : Addr) (v : Word32) : (hostWord we re a v).getLsbD 40 = re := by
  simp only [hostWord, bitcat_getLsbD]; simp

theorem hostWord_inj {we re we' re' : Bool} {a a' : Addr} {v v' : Word32} :
    hostWord we re a v = hostWord we' re' a' v' ↔ we = we' ∧ re = re' ∧ a = a' ∧ v = v' := by
  simp only [hostWord]
  rw [bitcat_inj (by decide), bitcat_inj (by decide), bitcat_inj (by decide), ofBool_inj, ofBool_inj]
  simp only [and_assoc]

/-- A host word is its ports. -/
theorem hostWord_eta (hw : HostWord) :
    hostWord (hw.getLsbD 41) (hw.getLsbD 40) (hostAddr hw) (hostData hw) = hw := by
  apply BitVec.eq_of_getLsbD_eq
  intro i hi
  simp only [hostWord, bitcat_getLsbD, hostAddr, hostData, BitVec.getLsbD_extractLsb', BitVec.getLsbD_ofBool]
  by_cases h1 : i < 32
  · simp [h1, hi]
  · by_cases h2 : i < 40
    · simp [h1, hi, show i - 32 < 10 by omega, show i - 32 < 8 by omega, show 32 + (i - 32) = i by omega]
    · have h3 : i = 40 ∨ i = 41 := by omega
      rcases h3 with rfl | rfl <;> simp

/-- A row whose mask and match are packed from ports, port by port. -/
theorem rowMatches_hostWord (we re mw mr cw cr : Bool) (a ma ca : Addr) (v mv cv : Word32) :
    rowMatches (hostWord we re a v) (hostWord mw mr ma mv) (hostWord cw cr ca cv) =
      ((we && mw) == cw && (re && mr) == cr && (a &&& ma) == ca && (v &&& mv) == cv) := by
  have h : hostWord we re a v &&& hostWord mw mr ma mv =
      hostWord (we && mw) (re && mr) (a &&& ma) (v &&& mv) := by
    simp only [hostWord, bitcat_and, ofBool_and]
  rw [rowMatches, h, Bool.eq_iff_iff]
  simp [hostWord_inj, and_assoc]

/-! ## Stream words -/

@[simp] theorem streamData_streamWord (r t c e : Bool) (b : Byte) : streamData (streamWord r t c e b) = b :=
  bitcat_low _ _ (by decide)

@[simp] theorem streamWord_rst (r t c e : Bool) (b : Byte) : (streamWord r t c e b).getLsbD 11 = r := by
  simp only [streamWord, bitcat_getLsbD]; simp

@[simp] theorem streamWord_tick (r t c e : Bool) (b : Byte) : (streamWord r t c e b).getLsbD 10 = t := by
  simp only [streamWord, bitcat_getLsbD]; simp

@[simp] theorem streamWord_closed (r t c e : Bool) (b : Byte) : (streamWord r t c e b).getLsbD 9 = c := by
  simp only [streamWord, bitcat_getLsbD]; simp

@[simp] theorem streamWord_valid (r t c e : Bool) (b : Byte) : (streamWord r t c e b).getLsbD 8 = e := by
  simp only [streamWord, bitcat_getLsbD]; simp

theorem streamWord_inj {r t c e r' t' c' e' : Bool} {b b' : Byte} :
    streamWord r t c e b = streamWord r' t' c' e' b' ↔ r = r' ∧ t = t' ∧ c = c' ∧ e = e' ∧ b = b' := by
  simp only [streamWord]
  rw [bitcat_inj (by decide), bitcat_inj (by decide), bitcat_inj (by decide), bitcat_inj (by decide),
    ofBool_inj, ofBool_inj, ofBool_inj, ofBool_inj]
  simp only [and_assoc]

/-- A stream word is its ports. -/
theorem streamWord_eta (sw : StreamWord) :
    streamWord (sw.getLsbD 11) (sw.getLsbD 10) (sw.getLsbD 9) (sw.getLsbD 8) (streamData sw) = sw := by
  apply BitVec.eq_of_getLsbD_eq
  intro i hi
  simp only [streamWord, bitcat_getLsbD, streamData, BitVec.getLsbD_extractLsb', BitVec.getLsbD_ofBool]
  by_cases h1 : i < 8
  · simp [h1, hi]
  · have h3 : i = 8 ∨ i = 9 ∨ i = 10 ∨ i = 11 := by omega
    rcases h3 with rfl | rfl | rfl | rfl <;> simp

/-- A row whose mask and match are packed from ports, port by port. -/
theorem rowMatches_streamWord (r t c e mr mt mc me kr kt kc ke : Bool) (b mb kb : Byte) :
    rowMatches (streamWord r t c e b) (streamWord mr mt mc me mb) (streamWord kr kt kc ke kb) =
      ((r && mr) == kr && (t && mt) == kt && (c && mc) == kc && (e && me) == ke && (b &&& mb) == kb) := by
  have h : streamWord r t c e b &&& streamWord mr mt mc me mb =
      streamWord (r && mr) (t && mt) (c && mc) (e && me) (b &&& mb) := by
    simp only [streamWord, bitcat_and, ofBool_and]
  rw [rowMatches, h, Bool.eq_iff_iff]
  simp [streamWord_inj, and_assoc]

/-! ## The decoder on packed words -/

theorem isReset_streamWord (r t c e : Bool) (b : Byte) : isReset (streamWord r t c e b) = r := by
  have h := rowMatches_streamWord r t c e true false false false true false false false b 0 0
  exact Eq.trans h (by simp)

theorem decodeStream_streamWord (t c e : Bool) (b : Byte) :
    decodeStream (streamWord false t c e b) =
      (if e then [.rxbyte b] else []) ++ (if c then [.rxclose] else []) ++ (if t then [.tick] else []) := by
  have h1 : rowMatches (streamWord false t c e b) 0x900 0x100 = e :=
    (rowMatches_streamWord false t c e true false false true false false false true b 0 0).trans (by simp)
  have h2 : rowMatches (streamWord false t c e b) 0xA00 0x200 = c :=
    (rowMatches_streamWord false t c e true false true false false false true false b 0 0).trans (by simp)
  have h3 : rowMatches (streamWord false t c e b) 0xC00 0x400 = t :=
    (rowMatches_streamWord false t c e true true false false false true false false b 0 0).trans (by simp)
  simp only [decodeStream, h1, h2, h3, streamData_streamWord]

/-! ## Host rows on packed words -/

theorem addr_and_ff (a : Addr) : a &&& 0xFF#8 = a := BitVec.and_allOnes

theorem rowMatches_writeAddr (re : Bool) (a : Addr) (v : Word32) (k : Addr) :
    rowMatches (hostWord true re a v) (hostWord true false 0xFF 0) (hostWord true false k 0) = (a == k) := by
  rw [rowMatches_hostWord]; simp [addr_and_ff]

theorem rowMatches_readAddr (we : Bool) (a : Addr) (v : Word32) (k : Addr) :
    rowMatches (hostWord we true a v) (hostWord false true 0xFF 0) (hostWord false true k 0) = (a == k) := by
  rw [rowMatches_hostWord]; simp [addr_and_ff]

theorem and_two_beq (v : Word32) : (v &&& 2#32 == 2#32) = v.getLsbD 1 := by
  rw [Bool.eq_iff_iff, beq_iff_eq]
  constructor
  · intro h; have := congrArg (fun w => w.getLsbD 1) h; simpa using this
  · intro h; apply BitVec.eq_of_getLsbD_eq; intro i hi
    by_cases h1 : i = 1
    · subst h1; simpa using h
    · have : (2#32).getLsbD i = false := by interval_cases i <;> first | rfl | omega
      simp [BitVec.getLsbD_and, this]

theorem and_three_beq_one (v : Word32) : (v &&& 3#32 == 1#32) = (v.getLsbD 0 && !v.getLsbD 1) := by
  rw [Bool.eq_iff_iff, beq_iff_eq]
  constructor
  · intro h
    have h0 := congrArg (fun w => w.getLsbD 0) h
    have h1 := congrArg (fun w => w.getLsbD 1) h
    simp at h0 h1; simp [h0, h1]
  · intro h; simp at h; apply BitVec.eq_of_getLsbD_eq; intro i hi
    have : i = 0 ∨ i = 1 ∨ 2 ≤ i := by omega
    rcases this with rfl | rfl | h2
    · simpa using h.1
    · simpa using h.2
    · have : (3#32).getLsbD i = false := by interval_cases i <;> rfl
      have h3 : (1#32).getLsbD i = false := by interval_cases i <;> rfl
      simp [BitVec.getLsbD_and, this, h3]

theorem and_one_beq_zero (a : Addr) : (a &&& 1#8 == 0#8) = decide (a.toNat % 2 = 0) := by
  revert a; decide

theorem and_one_beq_one (a : Addr) : (a &&& 1#8 == 1#8) = decide (a.toNat % 2 = 1) := by
  revert a; decide

/-- The write operation of packed ports, by index: the rows of 30_encoding.md R102. -/
theorem decodeWrite_hostWord (n : Nat) (re : Bool) (a : Addr) (v : Word32) :
    decodeWrite n (hostWord true re a v) = some (
      if a = 0 ∧ v.getLsbD 1 then .stop else if a = 0 ∧ v.getLsbD 0 then .start
      else if a = 2 then .wrCfg v else if a = 3 then .wrTmo v
      else if camAddr n a then (if a.toNat % 2 = 0 then .wrCamkey (camIndexOf a) v else .wrCamdata (camIndexOf a) v)
      else .wrIgn a v) := by
  have r1 : rowMatches (hostWord true re a v) 0x2FF00000002 0x20000000002 = (a == 0 && v.getLsbD 1) :=
    (rowMatches_hostWord true re true false true false a 0xFF 0 v 2 2).trans (by simp [addr_and_ff, and_two_beq])
  have r2 : rowMatches (hostWord true re a v) 0x2FF00000003 0x20000000001 = (a == 0 && (v.getLsbD 0 && !v.getLsbD 1)) :=
    (rowMatches_hostWord true re true false true false a 0xFF 0 v 3 1).trans (by simp [addr_and_ff, and_three_beq_one])
  have r3 : rowMatches (hostWord true re a v) 0x2FF00000000 0x20200000000 = (a == 2) := rowMatches_writeAddr re a v 2
  have r4 : rowMatches (hostWord true re a v) 0x2FF00000000 0x20300000000 = (a == 3) := rowMatches_writeAddr re a v 3
  have r5 : rowMatches (hostWord true re a v) 0x20100000000 0x20000000000 = decide (a.toNat % 2 = 0) :=
    (rowMatches_hostWord true re true false true false a 1 0 v 0 0).trans (by simp [and_one_beq_zero])
  have r6 : rowMatches (hostWord true re a v) 0x20100000000 0x20100000000 = decide (a.toNat % 2 = 1) :=
    (rowMatches_hostWord true re true false true false a 1 1 v 0 0).trans (by simp [and_one_beq_one])
  have r7 : rowMatches (hostWord true re a v) 0x20000000000 0x20000000000 = true :=
    (rowMatches_hostWord true re true false true false a 0 0 v 0 0).trans (by simp)
  simp only [decodeWrite, r1, r2, r3, r4, r5, r6, r7, hostAddr_hostWord, hostData_hostWord]
  by_cases h0 : a = 0
  · subst h0; cases h1 : v.getLsbD 1 <;> cases h2 : v.getLsbD 0 <;> simp [camAddr, Config.camBase]
  · by_cases h2 : a = 2 <;> by_cases h3 : a = 3 <;> by_cases hp : a.toNat % 2 = 0 <;> cases hc : camAddr n a <;>
      simp_all

theorem decodeWrite_none (n : Nat) (re : Bool) (a : Addr) (v : Word32) :
    decodeWrite n (hostWord false re a v) = none := by
  have r : ∀ (ma ca : Addr) (mv cv : Word32),
    rowMatches (hostWord false re a v) (hostWord true false ma mv) (hostWord true false ca cv) = false := by
    intro ma ca mv cv; rw [rowMatches_hostWord]; simp
  have r1 := r 0xFF 0 2 2
  have r2 := r 0xFF 0 3 1
  have r3 := r 0xFF 2 0 0
  have r4 := r 0xFF 3 0 0
  have r5 := r 1 0 0 0
  have r6 := r 1 1 0 0
  have r7 := r 0 0 0 0
  simp only [decodeWrite]
  change (if rowMatches _ (hostWord true false 0xFF 2) (hostWord true false 0 2) = true then _ else
    if rowMatches _ (hostWord true false 0xFF 3) (hostWord true false 0 1) = true then _ else
    if rowMatches _ (hostWord true false 0xFF 0) (hostWord true false 2 0) = true then _ else
    if rowMatches _ (hostWord true false 0xFF 0) (hostWord true false 3 0) = true then _ else
    if (rowMatches _ (hostWord true false 1 0) (hostWord true false 0 0) && _) = true then _ else
    if (rowMatches _ (hostWord true false 1 0) (hostWord true false 1 0) && _) = true then _ else
    if rowMatches _ (hostWord true false 0 0) (hostWord true false 0 0) = true then _ else _) = _
  rw [r1, r2, r3, r4, r5, r6, r7]; rfl

/-- The read operation of packed ports, by index: the rows of 30_encoding.md R103. -/
theorem decodeRead_hostWord (n : Nat) (we : Bool) (a : Addr) (v : Word32) :
    decodeRead n (hostWord we true a v) = some (
      if a = 0 then .rdCtrl else if a = 1 then .rdStatus else if a = 2 then .rdCfg else if a = 3 then .rdTmo
      else if a = 4 then .rdBuf else if a = 5 then .rdId
      else if camAddr n a then (if a.toNat % 2 = 0 then .rdCamkey (camIndexOf a) else .rdCamdata (camIndexOf a))
      else .rdRsvd a) := by
  have r0 : rowMatches (hostWord we true a v) 0x1FF00000000 0x10000000000 = (a == 0) := rowMatches_readAddr we a v 0
  have r1 : rowMatches (hostWord we true a v) 0x1FF00000000 0x10100000000 = (a == 1) := rowMatches_readAddr we a v 1
  have r2 : rowMatches (hostWord we true a v) 0x1FF00000000 0x10200000000 = (a == 2) := rowMatches_readAddr we a v 2
  have r3 : rowMatches (hostWord we true a v) 0x1FF00000000 0x10300000000 = (a == 3) := rowMatches_readAddr we a v 3
  have r4 : rowMatches (hostWord we true a v) 0x1FF00000000 0x10400000000 = (a == 4) := rowMatches_readAddr we a v 4
  have r5 : rowMatches (hostWord we true a v) 0x1FF00000000 0x10500000000 = (a == 5) := rowMatches_readAddr we a v 5
  have r6 : rowMatches (hostWord we true a v) 0x10100000000 0x10000000000 = decide (a.toNat % 2 = 0) :=
    (rowMatches_hostWord we true false true false true a 1 0 v 0 0).trans (by simp [and_one_beq_zero])
  have r7 : rowMatches (hostWord we true a v) 0x10100000000 0x10100000000 = decide (a.toNat % 2 = 1) :=
    (rowMatches_hostWord we true false true false true a 1 1 v 0 0).trans (by simp [and_one_beq_one])
  have r8 : rowMatches (hostWord we true a v) 0x10000000000 0x10000000000 = true :=
    (rowMatches_hostWord we true false true false true a 0 0 v 0 0).trans (by simp)
  simp only [decodeRead, r0, r1, r2, r3, r4, r5, r6, r7, r8, hostAddr_hostWord]
  by_cases h0 : a = 0; · simp [h0]
  by_cases h1 : a = 1; · simp [h1]
  by_cases h2 : a = 2; · simp [h2]
  by_cases h3 : a = 3; · simp [h3]
  by_cases h4 : a = 4; · simp [h4]
  by_cases h5 : a = 5; · simp [h5]
  by_cases hp : a.toNat % 2 = 0 <;> cases hc : camAddr n a <;> simp_all

theorem decodeRead_none (n : Nat) (we : Bool) (a : Addr) (v : Word32) :
    decodeRead n (hostWord we false a v) = none := by
  have r : ∀ (ma ca : Addr),
    rowMatches (hostWord we false a v) (hostWord false true ma 0) (hostWord false true ca 0) = false := by
    intro ma ca; rw [rowMatches_hostWord]; simp
  have r0 : rowMatches (hostWord we false a v) 0x1FF00000000 0x10000000000 = false := r 0xFF 0
  have r1 : rowMatches (hostWord we false a v) 0x1FF00000000 0x10100000000 = false := r 0xFF 1
  have r2 : rowMatches (hostWord we false a v) 0x1FF00000000 0x10200000000 = false := r 0xFF 2
  have r3 : rowMatches (hostWord we false a v) 0x1FF00000000 0x10300000000 = false := r 0xFF 3
  have r4 : rowMatches (hostWord we false a v) 0x1FF00000000 0x10400000000 = false := r 0xFF 4
  have r5 : rowMatches (hostWord we false a v) 0x1FF00000000 0x10500000000 = false := r 0xFF 5
  have r6 : rowMatches (hostWord we false a v) 0x10100000000 0x10000000000 = false := r 1 0
  have r7 : rowMatches (hostWord we false a v) 0x10100000000 0x10100000000 = false := r 1 1
  have r8 : rowMatches (hostWord we false a v) 0x10000000000 0x10000000000 = false := r 0 0
  simp only [decodeRead, r0, r1, r2, r3, r4, r5, r6, r7, r8, Bool.false_and]; rfl

end Sys2Proof
end

