-- ==== Sys2Proof/Laws/State.lean ====
section
/-! SUPPORT. One lemma per field per update of State, true by rfl, so that no proof unfolds a record update. -/

namespace Sys2Proof.Machine

variable (s : State)

/-! ## `emit` -/

@[simp] theorem State.emit_run (e : OutEvent) : (s.emit e).run = s.run := rfl
@[simp] theorem State.emit_stopReq (e : OutEvent) : (s.emit e).stopReq = s.stopReq := rfl
@[simp] theorem State.emit_cnt (e : OutEvent) : (s.emit e).cnt = s.cnt := rfl
@[simp] theorem State.emit_buf0 (e : OutEvent) : (s.emit e).buf0 = s.buf0 := rfl
@[simp] theorem State.emit_buf1 (e : OutEvent) : (s.emit e).buf1 = s.buf1 := rfl
@[simp] theorem State.emit_buf2 (e : OutEvent) : (s.emit e).buf2 = s.buf2 := rfl
@[simp] theorem State.emit_tmoCnt (e : OutEvent) : (s.emit e).tmoCnt = s.tmoCnt := rfl
@[simp] theorem State.emit_layout (e : OutEvent) : (s.emit e).layout = s.layout := rfl
@[simp] theorem State.emit_tmoReload (e : OutEvent) : (s.emit e).tmoReload = s.tmoReload := rfl
@[simp] theorem State.emit_cam (e : OutEvent) : (s.emit e).cam = s.cam := rfl
@[simp] theorem State.emit_stim (e : OutEvent) : (s.emit e).stim = s.stim := rfl
@[simp] theorem State.emit_out (e : OutEvent) : (s.emit e).out = s.out ++ [e] := rfl
@[simp] theorem State.emit_rdata (e : OutEvent) : (s.emit e).rdata = s.rdata := rfl
@[simp] theorem State.emit_unp (e : OutEvent) : (s.emit e).unp = s.unp := rfl
@[simp] theorem State.emit_trace (e : OutEvent) : (s.emit e).trace = s.trace ++ [e] := rfl
@[simp] theorem State.emit_reads (e : OutEvent) : (s.emit e).reads = s.reads := rfl

/-! ## `hostReturn` -/

@[simp] theorem State.hostReturn_run (v : Word32) : (s.hostReturn v).run = s.run := rfl
@[simp] theorem State.hostReturn_stopReq (v : Word32) : (s.hostReturn v).stopReq = s.stopReq := rfl
@[simp] theorem State.hostReturn_cnt (v : Word32) : (s.hostReturn v).cnt = s.cnt := rfl
@[simp] theorem State.hostReturn_buf0 (v : Word32) : (s.hostReturn v).buf0 = s.buf0 := rfl
@[simp] theorem State.hostReturn_buf1 (v : Word32) : (s.hostReturn v).buf1 = s.buf1 := rfl
@[simp] theorem State.hostReturn_buf2 (v : Word32) : (s.hostReturn v).buf2 = s.buf2 := rfl
@[simp] theorem State.hostReturn_tmoCnt (v : Word32) : (s.hostReturn v).tmoCnt = s.tmoCnt := rfl
@[simp] theorem State.hostReturn_layout (v : Word32) : (s.hostReturn v).layout = s.layout := rfl
@[simp] theorem State.hostReturn_tmoReload (v : Word32) : (s.hostReturn v).tmoReload = s.tmoReload := rfl
@[simp] theorem State.hostReturn_cam (v : Word32) : (s.hostReturn v).cam = s.cam := rfl
@[simp] theorem State.hostReturn_stim (v : Word32) : (s.hostReturn v).stim = s.stim := rfl
@[simp] theorem State.hostReturn_out (v : Word32) : (s.hostReturn v).out = s.out := rfl
@[simp] theorem State.hostReturn_rdata (v : Word32) : (s.hostReturn v).rdata = v := rfl
@[simp] theorem State.hostReturn_unp (v : Word32) : (s.hostReturn v).unp = s.unp := rfl
@[simp] theorem State.hostReturn_trace (v : Word32) : (s.hostReturn v).trace = s.trace := rfl
@[simp] theorem State.hostReturn_reads (v : Word32) : (s.hostReturn v).reads = s.reads ++ [v] := rfl

/-! ## `drive` -/

@[simp] theorem State.drive_run (p : EventPorts) : (s.drive p).run = s.run := rfl
@[simp] theorem State.drive_stopReq (p : EventPorts) : (s.drive p).stopReq = s.stopReq := rfl
@[simp] theorem State.drive_cnt (p : EventPorts) : (s.drive p).cnt = s.cnt := rfl
@[simp] theorem State.drive_buf0 (p : EventPorts) : (s.drive p).buf0 = s.buf0 := rfl
@[simp] theorem State.drive_buf1 (p : EventPorts) : (s.drive p).buf1 = s.buf1 := rfl
@[simp] theorem State.drive_buf2 (p : EventPorts) : (s.drive p).buf2 = s.buf2 := rfl
@[simp] theorem State.drive_tmoCnt (p : EventPorts) : (s.drive p).tmoCnt = s.tmoCnt := rfl
@[simp] theorem State.drive_layout (p : EventPorts) : (s.drive p).layout = s.layout := rfl
@[simp] theorem State.drive_tmoReload (p : EventPorts) : (s.drive p).tmoReload = s.tmoReload := rfl
@[simp] theorem State.drive_cam (p : EventPorts) : (s.drive p).cam = s.cam := rfl
@[simp] theorem State.drive_stim (p : EventPorts) : (s.drive p).stim = s.stim := rfl
@[simp] theorem State.drive_out (p : EventPorts) : (s.drive p).out = s.out := rfl
@[simp] theorem State.drive_rdata (p : EventPorts) : (s.drive p).rdata = s.rdata := rfl
@[simp] theorem State.drive_unp (p : EventPorts) : (s.drive p).unp = p := rfl
@[simp] theorem State.drive_trace (p : EventPorts) : (s.drive p).trace = s.trace := rfl
@[simp] theorem State.drive_reads (p : EventPorts) : (s.drive p).reads = s.reads := rfl

/-! ## `clearBuf` -/

@[simp] theorem State.clearBuf_run : (s.clearBuf).run = s.run := rfl
@[simp] theorem State.clearBuf_stopReq : (s.clearBuf).stopReq = s.stopReq := rfl
@[simp] theorem State.clearBuf_cnt : (s.clearBuf).cnt = 0 := rfl
@[simp] theorem State.clearBuf_buf0 : (s.clearBuf).buf0 = 0 := rfl
@[simp] theorem State.clearBuf_buf1 : (s.clearBuf).buf1 = 0 := rfl
@[simp] theorem State.clearBuf_buf2 : (s.clearBuf).buf2 = 0 := rfl
@[simp] theorem State.clearBuf_tmoCnt : (s.clearBuf).tmoCnt = s.tmoCnt := rfl
@[simp] theorem State.clearBuf_layout : (s.clearBuf).layout = s.layout := rfl
@[simp] theorem State.clearBuf_tmoReload : (s.clearBuf).tmoReload = s.tmoReload := rfl
@[simp] theorem State.clearBuf_cam : (s.clearBuf).cam = s.cam := rfl
@[simp] theorem State.clearBuf_stim : (s.clearBuf).stim = s.stim := rfl
@[simp] theorem State.clearBuf_out : (s.clearBuf).out = s.out := rfl
@[simp] theorem State.clearBuf_rdata : (s.clearBuf).rdata = s.rdata := rfl
@[simp] theorem State.clearBuf_unp : (s.clearBuf).unp = s.unp := rfl
@[simp] theorem State.clearBuf_trace : (s.clearBuf).trace = s.trace := rfl
@[simp] theorem State.clearBuf_reads : (s.clearBuf).reads = s.reads := rfl

/-! ## `reload` -/

@[simp] theorem State.reload_run : (s.reload).run = s.run := rfl
@[simp] theorem State.reload_stopReq : (s.reload).stopReq = s.stopReq := rfl
@[simp] theorem State.reload_cnt : (s.reload).cnt = s.cnt := rfl
@[simp] theorem State.reload_buf0 : (s.reload).buf0 = s.buf0 := rfl
@[simp] theorem State.reload_buf1 : (s.reload).buf1 = s.buf1 := rfl
@[simp] theorem State.reload_buf2 : (s.reload).buf2 = s.buf2 := rfl
@[simp] theorem State.reload_tmoCnt : (s.reload).tmoCnt = s.tmoReload := rfl
@[simp] theorem State.reload_layout : (s.reload).layout = s.layout := rfl
@[simp] theorem State.reload_tmoReload : (s.reload).tmoReload = s.tmoReload := rfl
@[simp] theorem State.reload_cam : (s.reload).cam = s.cam := rfl
@[simp] theorem State.reload_stim : (s.reload).stim = s.stim := rfl
@[simp] theorem State.reload_out : (s.reload).out = s.out := rfl
@[simp] theorem State.reload_rdata : (s.reload).rdata = s.rdata := rfl
@[simp] theorem State.reload_unp : (s.reload).unp = s.unp := rfl
@[simp] theorem State.reload_trace : (s.reload).trace = s.trace := rfl
@[simp] theorem State.reload_reads : (s.reload).reads = s.reads := rfl

/-! ## `halt` -/

@[simp] theorem State.halt_run : (s.halt).run = .stopped := rfl
@[simp] theorem State.halt_stopReq : (s.halt).stopReq = false := rfl
@[simp] theorem State.halt_cnt : (s.halt).cnt = s.cnt := rfl
@[simp] theorem State.halt_buf0 : (s.halt).buf0 = s.buf0 := rfl
@[simp] theorem State.halt_buf1 : (s.halt).buf1 = s.buf1 := rfl
@[simp] theorem State.halt_buf2 : (s.halt).buf2 = s.buf2 := rfl
@[simp] theorem State.halt_tmoCnt : (s.halt).tmoCnt = 0 := rfl
@[simp] theorem State.halt_layout : (s.halt).layout = s.layout := rfl
@[simp] theorem State.halt_tmoReload : (s.halt).tmoReload = s.tmoReload := rfl
@[simp] theorem State.halt_cam : (s.halt).cam = s.cam := rfl
@[simp] theorem State.halt_stim : (s.halt).stim = s.stim := rfl
@[simp] theorem State.halt_out : (s.halt).out = s.out := rfl
@[simp] theorem State.halt_rdata : (s.halt).rdata = s.rdata := rfl
@[simp] theorem State.halt_unp : (s.halt).unp = s.unp := rfl
@[simp] theorem State.halt_trace : (s.halt).trace = s.trace := rfl
@[simp] theorem State.halt_reads : (s.halt).reads = s.reads := rfl

/-! ## `setCfg` -/

@[simp] theorem State.setCfg_run (v : Word32) : (s.setCfg v).run = s.run := rfl
@[simp] theorem State.setCfg_stopReq (v : Word32) : (s.setCfg v).stopReq = s.stopReq := rfl
@[simp] theorem State.setCfg_cnt (v : Word32) : (s.setCfg v).cnt = s.cnt := rfl
@[simp] theorem State.setCfg_buf0 (v : Word32) : (s.setCfg v).buf0 = s.buf0 := rfl
@[simp] theorem State.setCfg_buf1 (v : Word32) : (s.setCfg v).buf1 = s.buf1 := rfl
@[simp] theorem State.setCfg_buf2 (v : Word32) : (s.setCfg v).buf2 = s.buf2 := rfl
@[simp] theorem State.setCfg_tmoCnt (v : Word32) : (s.setCfg v).tmoCnt = s.tmoCnt := rfl
@[simp] theorem State.setCfg_layout (v : Word32) : (s.setCfg v).layout = layoutOf (v.getLsbD 0) := rfl
@[simp] theorem State.setCfg_tmoReload (v : Word32) : (s.setCfg v).tmoReload = s.tmoReload := rfl
@[simp] theorem State.setCfg_cam (v : Word32) : (s.setCfg v).cam = s.cam := rfl
@[simp] theorem State.setCfg_stim (v : Word32) : (s.setCfg v).stim = s.stim := rfl
@[simp] theorem State.setCfg_out (v : Word32) : (s.setCfg v).out = s.out := rfl
@[simp] theorem State.setCfg_rdata (v : Word32) : (s.setCfg v).rdata = s.rdata := rfl
@[simp] theorem State.setCfg_unp (v : Word32) : (s.setCfg v).unp = s.unp := rfl
@[simp] theorem State.setCfg_trace (v : Word32) : (s.setCfg v).trace = s.trace := rfl
@[simp] theorem State.setCfg_reads (v : Word32) : (s.setCfg v).reads = s.reads := rfl

/-! ## `setTmo` -/

@[simp] theorem State.setTmo_run (v : Word32) : (s.setTmo v).run = s.run := rfl
@[simp] theorem State.setTmo_stopReq (v : Word32) : (s.setTmo v).stopReq = s.stopReq := rfl
@[simp] theorem State.setTmo_cnt (v : Word32) : (s.setTmo v).cnt = s.cnt := rfl
@[simp] theorem State.setTmo_buf0 (v : Word32) : (s.setTmo v).buf0 = s.buf0 := rfl
@[simp] theorem State.setTmo_buf1 (v : Word32) : (s.setTmo v).buf1 = s.buf1 := rfl
@[simp] theorem State.setTmo_buf2 (v : Word32) : (s.setTmo v).buf2 = s.buf2 := rfl
@[simp] theorem State.setTmo_tmoCnt (v : Word32) : (s.setTmo v).tmoCnt = s.tmoCnt := rfl
@[simp] theorem State.setTmo_layout (v : Word32) : (s.setTmo v).layout = s.layout := rfl
@[simp] theorem State.setTmo_tmoReload (v : Word32) : (s.setTmo v).tmoReload = legalReload (v.extractLsb' 0 8) := rfl
@[simp] theorem State.setTmo_cam (v : Word32) : (s.setTmo v).cam = s.cam := rfl
@[simp] theorem State.setTmo_stim (v : Word32) : (s.setTmo v).stim = s.stim := rfl
@[simp] theorem State.setTmo_out (v : Word32) : (s.setTmo v).out = s.out := rfl
@[simp] theorem State.setTmo_rdata (v : Word32) : (s.setTmo v).rdata = s.rdata := rfl
@[simp] theorem State.setTmo_unp (v : Word32) : (s.setTmo v).unp = s.unp := rfl
@[simp] theorem State.setTmo_trace (v : Word32) : (s.setTmo v).trace = s.trace := rfl
@[simp] theorem State.setTmo_reads (v : Word32) : (s.setTmo v).reads = s.reads := rfl

/-! ## `updateCam` -/

@[simp] theorem State.updateCam_run (i : CamIndex) (f : CamEntry → CamEntry) : (s.updateCam i f).run = s.run := rfl
@[simp] theorem State.updateCam_stopReq (i : CamIndex) (f : CamEntry → CamEntry) : (s.updateCam i f).stopReq = s.stopReq := rfl
@[simp] theorem State.updateCam_cnt (i : CamIndex) (f : CamEntry → CamEntry) : (s.updateCam i f).cnt = s.cnt := rfl
@[simp] theorem State.updateCam_buf0 (i : CamIndex) (f : CamEntry → CamEntry) : (s.updateCam i f).buf0 = s.buf0 := rfl
@[simp] theorem State.updateCam_buf1 (i : CamIndex) (f : CamEntry → CamEntry) : (s.updateCam i f).buf1 = s.buf1 := rfl
@[simp] theorem State.updateCam_buf2 (i : CamIndex) (f : CamEntry → CamEntry) : (s.updateCam i f).buf2 = s.buf2 := rfl
@[simp] theorem State.updateCam_tmoCnt (i : CamIndex) (f : CamEntry → CamEntry) : (s.updateCam i f).tmoCnt = s.tmoCnt := rfl
@[simp] theorem State.updateCam_layout (i : CamIndex) (f : CamEntry → CamEntry) : (s.updateCam i f).layout = s.layout := rfl
@[simp] theorem State.updateCam_tmoReload (i : CamIndex) (f : CamEntry → CamEntry) : (s.updateCam i f).tmoReload = s.tmoReload := rfl
@[simp] theorem State.updateCam_cam (i : CamIndex) (f : CamEntry → CamEntry) : (s.updateCam i f).cam = s.cam.modify i.toNat f := rfl
@[simp] theorem State.updateCam_stim (i : CamIndex) (f : CamEntry → CamEntry) : (s.updateCam i f).stim = s.stim := rfl
@[simp] theorem State.updateCam_out (i : CamIndex) (f : CamEntry → CamEntry) : (s.updateCam i f).out = s.out := rfl
@[simp] theorem State.updateCam_rdata (i : CamIndex) (f : CamEntry → CamEntry) : (s.updateCam i f).rdata = s.rdata := rfl
@[simp] theorem State.updateCam_unp (i : CamIndex) (f : CamEntry → CamEntry) : (s.updateCam i f).unp = s.unp := rfl
@[simp] theorem State.updateCam_trace (i : CamIndex) (f : CamEntry → CamEntry) : (s.updateCam i f).trace = s.trace := rfl
@[simp] theorem State.updateCam_reads (i : CamIndex) (f : CamEntry → CamEntry) : (s.updateCam i f).reads = s.reads := rfl

/-! ## `resetAll` -/

@[simp] theorem State.resetAll_run : (s.resetAll).run = .starting := rfl
@[simp] theorem State.resetAll_stopReq : (s.resetAll).stopReq = false := rfl
@[simp] theorem State.resetAll_cnt : (s.resetAll).cnt = 0 := rfl
@[simp] theorem State.resetAll_buf0 : (s.resetAll).buf0 = 0 := rfl
@[simp] theorem State.resetAll_buf1 : (s.resetAll).buf1 = 0 := rfl
@[simp] theorem State.resetAll_buf2 : (s.resetAll).buf2 = 0 := rfl
@[simp] theorem State.resetAll_tmoCnt : (s.resetAll).tmoCnt = 0 := rfl
@[simp] theorem State.resetAll_layout : (s.resetAll).layout = .bitfield := rfl
@[simp] theorem State.resetAll_tmoReload : (s.resetAll).tmoReload = 1 := rfl
@[simp] theorem State.resetAll_cam : (s.resetAll).cam = List.replicate s.cam.length .cleared := rfl
@[simp] theorem State.resetAll_stim : (s.resetAll).stim = s.stim := rfl
@[simp] theorem State.resetAll_out : (s.resetAll).out = [] := rfl
@[simp] theorem State.resetAll_rdata : (s.resetAll).rdata = 0 := rfl
@[simp] theorem State.resetAll_unp : (s.resetAll).unp = .idle := rfl
@[simp] theorem State.resetAll_trace : (s.resetAll).trace = s.trace := rfl
@[simp] theorem State.resetAll_reads : (s.resetAll).reads = s.reads := rfl

/-! ## `beginCycle` -/

@[simp] theorem State.beginCycle_run : (s.beginCycle).run = s.run := rfl
@[simp] theorem State.beginCycle_stopReq : (s.beginCycle).stopReq = s.stopReq := rfl
@[simp] theorem State.beginCycle_cnt : (s.beginCycle).cnt = s.cnt := rfl
@[simp] theorem State.beginCycle_buf0 : (s.beginCycle).buf0 = s.buf0 := rfl
@[simp] theorem State.beginCycle_buf1 : (s.beginCycle).buf1 = s.buf1 := rfl
@[simp] theorem State.beginCycle_buf2 : (s.beginCycle).buf2 = s.buf2 := rfl
@[simp] theorem State.beginCycle_tmoCnt : (s.beginCycle).tmoCnt = s.tmoCnt := rfl
@[simp] theorem State.beginCycle_layout : (s.beginCycle).layout = s.layout := rfl
@[simp] theorem State.beginCycle_tmoReload : (s.beginCycle).tmoReload = s.tmoReload := rfl
@[simp] theorem State.beginCycle_cam : (s.beginCycle).cam = s.cam := rfl
@[simp] theorem State.beginCycle_stim : (s.beginCycle).stim = s.stim.tail := rfl
@[simp] theorem State.beginCycle_out : (s.beginCycle).out = [] := rfl
@[simp] theorem State.beginCycle_rdata : (s.beginCycle).rdata = 0 := rfl
@[simp] theorem State.beginCycle_unp : (s.beginCycle).unp = .idle := rfl
@[simp] theorem State.beginCycle_trace : (s.beginCycle).trace = s.trace := rfl
@[simp] theorem State.beginCycle_reads : (s.beginCycle).reads = s.reads := rfl

/-! ## `present` -/

@[simp] theorem State.present_run (x : Stimulus) : (s.present x).run = s.run := rfl
@[simp] theorem State.present_stopReq (x : Stimulus) : (s.present x).stopReq = s.stopReq := rfl
@[simp] theorem State.present_cnt (x : Stimulus) : (s.present x).cnt = s.cnt := rfl
@[simp] theorem State.present_buf0 (x : Stimulus) : (s.present x).buf0 = s.buf0 := rfl
@[simp] theorem State.present_buf1 (x : Stimulus) : (s.present x).buf1 = s.buf1 := rfl
@[simp] theorem State.present_buf2 (x : Stimulus) : (s.present x).buf2 = s.buf2 := rfl
@[simp] theorem State.present_tmoCnt (x : Stimulus) : (s.present x).tmoCnt = s.tmoCnt := rfl
@[simp] theorem State.present_layout (x : Stimulus) : (s.present x).layout = s.layout := rfl
@[simp] theorem State.present_tmoReload (x : Stimulus) : (s.present x).tmoReload = s.tmoReload := rfl
@[simp] theorem State.present_cam (x : Stimulus) : (s.present x).cam = s.cam := rfl
@[simp] theorem State.present_stim (x : Stimulus) : (s.present x).stim = x :: s.stim := rfl
@[simp] theorem State.present_out (x : Stimulus) : (s.present x).out = s.out := rfl
@[simp] theorem State.present_rdata (x : Stimulus) : (s.present x).rdata = s.rdata := rfl
@[simp] theorem State.present_unp (x : Stimulus) : (s.present x).unp = s.unp := rfl
@[simp] theorem State.present_trace (x : Stimulus) : (s.present x).trace = s.trace := rfl
@[simp] theorem State.present_reads (x : Stimulus) : (s.present x).reads = s.reads := rfl

end Sys2Proof.Machine
end

