-- ==== Sys2Proof/Laws/Exec.lean ====
section
/-! SUPPORT. The arms of `exec` as equations, and what running a list of operations answers. -/

namespace Sys2Proof.Machine

section Arms

variable (s : State)

@[simp] theorem exec_reset : exec .reset s = .next (s.resetAll) := rfl
@[simp] theorem exec_rxbyte (b : Byte) : exec (.rxbyte b) s = .next (s.acceptByte b) := rfl
@[simp] theorem exec_rxclose : exec .rxclose s = .next (s.sourceClosed) := rfl
@[simp] theorem exec_tick : exec .tick s = .next (s.timebaseTick) := rfl
@[simp] theorem exec_nop : exec .nop s = .next s := rfl
@[simp] theorem exec_stop : exec .stop s = .next (s.stopRun) := rfl
@[simp] theorem exec_start : exec .start s = .next (s.startRun) := rfl
@[simp] theorem exec_wrCfg (v : Word32) : exec (.wrCfg v) s = .next (s.whileStarting (State.setCfg v)) := rfl
@[simp] theorem exec_wrTmo (v : Word32) : exec (.wrTmo v) s = .next (s.whileStarting (State.setTmo v)) := rfl
@[simp] theorem exec_wrCamkey (i : CamIndex) (v : Word32) :
    exec (.wrCamkey i v) s = .next (s.whileStarting (State.updateCam i (CamEntry.withKey v))) := rfl
@[simp] theorem exec_wrCamdata (i : CamIndex) (v : Word32) :
    exec (.wrCamdata i v) s = .next (s.whileStarting (State.updateCam i (CamEntry.withData v))) := rfl
@[simp] theorem exec_wrIgn (a : Addr) (v : Word32) : exec (.wrIgn a v) s = .next s := rfl
@[simp] theorem exec_rdCtrl : exec .rdCtrl s = .next (s.hostReturn (ctrlWord s)) := rfl
@[simp] theorem exec_rdStatus : exec .rdStatus s = .next (s.hostReturn (statusWord s)) := rfl
@[simp] theorem exec_rdCfg : exec .rdCfg s = .next (s.hostReturn (cfgWord s)) := rfl
@[simp] theorem exec_rdTmo : exec .rdTmo s = .next (s.hostReturn (tmoWord s)) := rfl
@[simp] theorem exec_rdBuf : exec .rdBuf s = .next (s.hostReturn (bufWord s)) := rfl
@[simp] theorem exec_rdId : exec .rdId s = .next (s.hostReturn (idWord s)) := rfl
@[simp] theorem exec_rdCamkey (i : CamIndex) : exec (.rdCamkey i) s = .next (s.hostReturn (camkeyWord s i)) := rfl
@[simp] theorem exec_rdCamdata (i : CamIndex) : exec (.rdCamdata i) s = .next (s.hostReturn (camdataWord s i)) := rfl
@[simp] theorem exec_rdRsvd (a : Addr) : exec (.rdRsvd a) s = .next (s.hostReturn (reservedWord a)) := rfl
@[simp] theorem exec_zclosed (F : Frame) :
    exec (.zclosed F) s = .next (s.emitFrame F (decodeEvent .bitfield F) (some (zoneIntent (frameZone F) 0))) := rfl
@[simp] theorem exec_zopen (F : Frame) :
    exec (.zopen F) s = .next (s.emitFrame F (decodeEvent .bitfield F) (some (zoneIntent (frameZone F) 1))) := rfl
@[simp] theorem exec_zrsvEc2 (F : Frame) :
    exec (.zrsvEc2 F) s = .next (s.emitFrame F (decodeEvent .bitfield F) none) := rfl
@[simp] theorem exec_zrsvEc3 (F : Frame) :
    exec (.zrsvEc3 F) s = .next (s.emitFrame F (decodeEvent .bitfield F) none) := rfl
@[simp] theorem exec_zrsvT1 (F : Frame) :
    exec (.zrsvT1 F) s = .next (s.emitFrame F (decodeEvent .bitfield F) none) := rfl
@[simp] theorem exec_zdrop (F : Frame) :
    exec (.zdrop F) s = .next (s.emitFrame F (decodeEvent .bitfield F) none) := rfl
@[simp] theorem exec_kevt (F : Frame) :
    exec (.kevt F) s = .next (s.emitFrame F (decodeEvent .codeBytes F) ((camLookup s.cam (frameW0 F)).map tableIntent)) := rfl
@[simp] theorem exec_unpType (F : Frame) :
    exec (.unpType F) s = .next (s.drive { s.unp with typeBit := if s.layout = .bitfield then frameType F else 0 }) := rfl
@[simp] theorem exec_unpCode (F : Frame) :
    exec (.unpCode F) s = .next (s.drive { s.unp with eventCode := if s.layout = .bitfield then frameCode F else 0 }) := rfl
@[simp] theorem exec_unpZone (F : Frame) :
    exec (.unpZone F) s = .next (s.drive { s.unp with zone := if s.layout = .bitfield then frameZone F else 0 }) := rfl
@[simp] theorem exec_unpHours (F : Frame) :
    exec (.unpHours F) s = .next (s.drive { s.unp with hours := frameHours F }) := rfl
@[simp] theorem exec_unpMinutes (F : Frame) :
    exec (.unpMinutes F) s = .next (s.drive { s.unp with minutes := frameMinutes F }) := rfl
@[simp] theorem exec_unpKey (F : Frame) :
    exec (.unpKey F) s = .next (s.drive { s.unp with
      key := if s.layout = .codeBytes then eventKey (frameByte0 F) (frameByte1 F) else 0 }) := rfl

end Arms

/-! ## Running operations in order -/

@[simp] theorem runOps_nil (s : State) : runOps [] s = .next s := rfl

theorem runOps_cons_next {i : Instr} {s t : State} (h : exec i s = .next t) (is : List Instr) :
    runOps (i :: is) s = runOps is t := by
  simp [runOps, h]

theorem runOps_singleton (i : Instr) (s : State) : runOps [i] s = exec i s := by
  cases h : exec i s <;> simp [runOps, h]

theorem runOps_append {is : List Instr} (js : List Instr) {s t : State} (h : runOps is s = .next t) :
    runOps (is ++ js) s = runOps js t := by
  induction is generalizing s with
  | nil => simp only [runOps_nil, Host.Outcome.next.injEq] at h; simp [h]
  | cons i is ih =>
    simp only [runOps, List.cons_append] at h ⊢
    split at h
    · exact ih h
    · cases h
    · cases h

theorem step_eq_runOps (s : State) : step s = runOps s.fetchOps s.beginCycle := rfl

end Sys2Proof.Machine
end

