-- ==== Sys2Proof/Laws/Ops.lean ====
section
/-! SUPPORT. What each shared operation of Machine/Ops.lean can do, said once. -/

namespace Sys2Proof.Machine

/-- The events of a frame: `RAW`, `DECODED`, and the intent where there is one. -/
def frameEvents (F : Frame) (ev : DecodedEvent) (i : Option Intent) : List OutEvent :=
  [.raw F, .decoded ev] ++ (i.map OutEvent.intent).toList

/-- Events appended to what the outside world has seen. -/
def State.emitAll (es : List OutEvent) (s : State) : State :=
  { s with out := s.out ++ es, trace := s.trace ++ es }

theorem State.emitFrame_eq (F : Frame) (ev : DecodedEvent) (i : Option Intent) (s : State) :
    s.emitFrame F ev i = s.emitAll (frameEvents F ev i) := by
  cases i <;> simp [State.emitFrame, State.emitIntent, State.emitAll, State.emit, frameEvents]

theorem State.processFrame_eq (F : Frame) (s : State) :
    s.processFrame F =
      (s.drive (decodeEvent s.layout F).ports).emitAll
        (frameEvents F (decodeEvent s.layout F) (dispatchEvent s.cam (decodeEvent s.layout F))) := by
  simp [State.processFrame, State.emitFrame_eq]

/-- The epilogue in one record: the buffer cleared, and either the run stopped or the next window opened. -/
theorem State.epilogue_eq (s : State) :
    s.epilogue = { s with
      cnt := 0
      buf0 := 0
      buf1 := 0
      buf2 := 0
      run := if s.stopReq then .stopped else s.run
      stopReq := false
      tmoCnt := if s.stopReq then 0 else s.tmoReload } := by
  rcases h : s.stopReq <;> simp [State.epilogue, State.clearBuf, State.halt, State.reload, h]

/-- One byte does one of three things: nothing, is stored, or completes a frame. -/
theorem State.acceptByte_cases (b : Byte) (s : State) :
    (s.run ≠ .running ∧ s.acceptByte b = s) ∨
    (s.run = .running ∧ s.cnt.toNat ≤ 2 ∧
      s.acceptByte b = { (if s.cnt = 0 then s.reload else s).setBuf s.cnt b with cnt := s.cnt + 1 }) ∨
    (s.run = .running ∧ s.cnt.toNat = 3 ∧
      s.acceptByte b = (s.processFrame (frameOf s.buf0 s.buf1 s.buf2 b)).epilogue) := by
  by_cases hr : s.run = .running
  · by_cases hc : s.cnt.toNat ≤ 2
    · exact .inr (.inl ⟨hr, hc, by simp [State.acceptByte, hr, hc]⟩)
    · have : s.cnt.toNat = 3 := by have := s.cnt.isLt; omega
      exact .inr (.inr ⟨hr, this, by simp [State.acceptByte, hr, hc, State.takeOutcome]⟩)
  · exact .inl ⟨hr, by simp [State.acceptByte, hr]⟩

/-- A stored byte in one record. -/
theorem State.storeByte_eq (b : Byte) (s : State) (hc : s.cnt.toNat ≤ 2) :
    { (if s.cnt = 0 then s.reload else s).setBuf s.cnt b with cnt := s.cnt + 1 } =
      { s with
        buf0 := if s.cnt = 0 then b else s.buf0
        buf1 := if s.cnt = 1 then b else s.buf1
        buf2 := if s.cnt = 2 then b else s.buf2
        cnt := s.cnt + 1
        tmoCnt := if s.cnt = 0 then s.tmoReload else s.tmoCnt } := by
  have h3 : s.cnt = 0 ∨ s.cnt = 1 ∨ s.cnt = 2 := by
    have h0 : s.cnt.toNat = 0 ∨ s.cnt.toNat = 1 ∨ s.cnt.toNat = 2 := by omega
    rcases h0 with h | h | h
    · exact .inl (BitVec.eq_of_toNat_eq h)
    · exact .inr (.inl (BitVec.eq_of_toNat_eq h))
    · exact .inr (.inr (BitVec.eq_of_toNat_eq h))
  rcases h3 with h | h | h <;> simp [State.setBuf, State.reload, h]

/-- Closure does one of two things: nothing, or DISCONNECTED with the bytes held reported first. -/
theorem State.sourceClosed_cases (s : State) :
    (s.run ≠ .running ∧ s.sourceClosed = s) ∨
    (s.run = .running ∧ s.sourceClosed =
      ((s.emitAll ((if s.cnt = 0 then [] else [.partialFrame s.cnt s.buf0 s.buf1 s.buf2]) ++ [.fatal 3])).clearBuf).halt) := by
  by_cases hr : s.run = .running
  · refine .inr ⟨hr, ?_⟩
    by_cases hc : s.cnt = 0#2 <;>
      simp [State.sourceClosed, hr, State.takeOutcome, hc, State.emitPartial, State.emit, State.emitAll,
        FsOutcome.code]
  · exact .inl ⟨hr, by simp [State.sourceClosed, hr]⟩

/-- A tick does one of three things: nothing, counts down, or ends the read with TIMEOUT or PARTIAL. -/
theorem State.timebaseTick_cases (s : State) :
    (s.run ≠ .running ∧ s.timebaseTick = s) ∨
    (s.run = .running ∧ 1 < s.tmoCnt.toNat ∧ s.timebaseTick = { s with tmoCnt := s.tmoCnt - 1 }) ∨
    (s.run = .running ∧ s.tmoCnt.toNat ≤ 1 ∧ s.timebaseTick =
      (s.emitAll [if s.cnt = 0 then .timeout else .partialFrame s.cnt s.buf0 s.buf1 s.buf2]).epilogue) := by
  by_cases hr : s.run = .running
  · by_cases ht : 1 < s.tmoCnt.toNat
    · exact .inr (.inl ⟨hr, ht, by simp [State.timebaseTick, hr, ht]⟩)
    · refine .inr (.inr ⟨hr, by omega, ?_⟩)
      by_cases hc : s.cnt = 0#2 <;>
        simp [State.timebaseTick, hr, ht, hc, State.takeOutcome, State.emitPartial, State.emit, State.emitAll]
  · exact .inl ⟨hr, by simp [State.timebaseTick, hr]⟩

/-- START acts in STARTING only. -/
theorem State.startRun_cases (s : State) :
    (s.run = .starting ∧ s.startRun = { s with run := .running, tmoCnt := s.tmoReload }) ∨
    (s.run ≠ .starting ∧ s.startRun = s) := by
  by_cases h : s.run = .starting
  · exact .inl ⟨h, by simp [State.startRun, h]⟩
  · exact .inr ⟨h, by simp [State.startRun, h]⟩

/-- STOP does one thing per run state. -/
theorem State.stopRun_cases (s : State) :
    (s.run = .starting ∧ s.stopRun = { s with run := .stopped }) ∨
    (s.run = .running ∧ s.stopRun = { s with stopReq := true }) ∨
    (s.run = .stopped ∧ s.stopRun = s) := by
  cases h : s.run <;> simp [State.stopRun, h]

/-- A configuration write has its effect in STARTING and none elsewhere. -/
theorem State.whileStarting_cases (f : State → State) (s : State) :
    (s.run = .starting ∧ s.whileStarting f = f s) ∨ (s.run ≠ .starting ∧ s.whileStarting f = s) := by
  by_cases h : s.run = .starting
  · exact .inl ⟨h, by simp [State.whileStarting, h]⟩
  · exact .inr ⟨h, by simp [State.whileStarting, h]⟩

theorem legalReload_pos (v : BitVec 8) : 1 ≤ (legalReload v).toNat := by
  unfold legalReload
  split
  · decide
  · rename_i h
    have : v.toNat ≠ 0 := fun h0 => h (BitVec.eq_of_toNat_eq h0)
    omega

end Sys2Proof.Machine
end

