-- ==== Sys2Proof/Laws/Cycle.lean ====
section
/-! SUPPORT. A decoded host operation against the register access it stands for, the decoded cycle on packed ports, and what
keeps the number of CAM entries. -/

namespace Sys2Proof.Machine

/-! ## Host operations are register accesses -/

theorem exec_write (s : State) (re : Bool) (a : Addr) (v : Word32) (i : Instr)
    (h : decodeWrite s.nRules (hostWord true re a v) = some i) : exec i s = .next (s.regWrite a v) := by
  rw [decodeWrite_hostWord] at h
  simp only [Option.some.injEq] at h
  subst h
  unfold State.regWrite
  by_cases h0 : a = 0
  · subst h0; cases h1 : v.getLsbD 1 <;> cases h2 : v.getLsbD 0 <;> simp [camAddr, Config.camBase]
  by_cases h2 : a = 2; · subst h2; simp
  by_cases h3 : a = 3; · subst h3; simp
  cases hc : camAddr s.nRules a <;> by_cases hp : a.toNat % 2 = 0 <;> simp_all

theorem exec_read (s : State) (n : Nat) (hn : n = s.nRules) (we : Bool) (a : Addr) (v : Word32) (i : Instr)
    (h : decodeRead n (hostWord we true a v) = some i) : exec i s = .next (s.hostReturn (regRead s a)) := by
  rw [decodeRead_hostWord] at h
  simp only [Option.some.injEq] at h
  subst h hn
  unfold regRead
  by_cases h0 : a = 0; · simp [h0]
  by_cases h1 : a = 1; · simp [h1]
  by_cases h2 : a = 2; · simp [h2]
  by_cases h3 : a = 3; · simp [h3]
  by_cases h4 : a = 4; · simp [h4]
  by_cases h5 : a = 5; · simp [h5]
  cases hc : camAddr s.nRules a <;> by_cases hp : a.toNat % 2 = 0 <;> simp_all

/-! ## A cycle on packed ports -/

theorem decodeCycle_ports (n : Nat) (t c e we re : Bool) (b : Byte) (a : Addr) (v : Word32) :
    decodeCycle n ⟨streamWord false t c e b, hostWord we re a v⟩ =
      orNop ((decodeRead n (hostWord we re a v)).toList ++
        ((if e then [.rxbyte b] else []) ++ (if c then [.rxclose] else []) ++ (if t then [.tick] else [])) ++
        (decodeWrite n (hostWord we re a v)).toList) := by
  simp [decodeCycle, isReset_streamWord, decodeStream_streamWord]

theorem runOps_orNop (l : List Instr) (s : State) :
    runOps (orNop l) s = runOps l s := by
  cases l <;> simp [runOps, orNop]

theorem acceptByte_nRules (b : Byte) (s : State) : (s.acceptByte b).nRules = s.nRules := by
  rcases s.acceptByte_cases b with ⟨_, h⟩ | ⟨_, h2, h⟩ | ⟨_, _, h⟩ <;> rw [h]
  · rw [State.storeByte_eq b s h2]; rfl
  · rw [State.processFrame_eq, State.epilogue_eq]; rfl

theorem sourceClosed_nRules (s : State) : (s.sourceClosed).nRules = s.nRules := by
  rcases s.sourceClosed_cases with ⟨_, h⟩ | ⟨_, h⟩ <;> rw [h]; rfl

theorem timebaseTick_nRules (s : State) : (s.timebaseTick).nRules = s.nRules := by
  rcases s.timebaseTick_cases with ⟨_, h⟩ | ⟨_, _, h⟩ | ⟨_, _, h⟩ <;> rw [h]
  · rfl
  · rw [State.epilogue_eq]; rfl

theorem runOps_stream (t c e : Bool) (b : Byte) (is : List Instr) (s : State) :
    runOps (((if e then [.rxbyte b] else []) ++ (if c then [.rxclose] else []) ++ (if t then [.tick] else [])) ++ is)
        s =
      runOps is (phaseTick t (phaseClose c (phaseByte (if e then some b else none) s))) := by
  cases t <;> cases c <;> cases e <;> simp [runOps, phaseTick, phaseClose, phaseByte]

theorem streamPhases_nRules (t c e : Bool) (b : Byte) (s : State) :
    (phaseTick t (phaseClose c (phaseByte (if e then some b else none) s))).nRules = s.nRules := by
  cases t <;> cases c <;> cases e <;> simp [phaseTick, phaseClose, phaseByte, acceptByte_nRules, sourceClosed_nRules,
    timebaseTick_nRules]

end Sys2Proof.Machine
end

