-- ==== Sys2Proof/Laws/PerInstr.lean ====
section
/-! SUPPORT. Lemmas per constructor of `Instr`: the words an operation is encoded in are of the format of its kind (30_encoding.md
R104, column "format"). -/

namespace Sys2Proof.Laws

/-- The encoder writes a cycle's stimulus for a cycle's operation, a frame under a layout for a class or a slice. -/
def EncodeKind.Statement (i : Instr) : Prop :=
  match i.kind with
  | .cycle => ∃ x, encode i = .cycle x
  | .frameClass => ∃ l F, encode i = .frame l F
  | .slice => ∃ l F, encode i = .frame l F

theorem EncodeKind.reset : EncodeKind.Statement .reset := ⟨_, rfl⟩
theorem EncodeKind.rxbyte (b : Byte) : EncodeKind.Statement (.rxbyte b) := ⟨_, rfl⟩
theorem EncodeKind.rxclose : EncodeKind.Statement .rxclose := ⟨_, rfl⟩
theorem EncodeKind.tick : EncodeKind.Statement .tick := ⟨_, rfl⟩
theorem EncodeKind.nop : EncodeKind.Statement .nop := ⟨_, rfl⟩
theorem EncodeKind.zclosed (F : Frame) : EncodeKind.Statement (.zclosed F) := ⟨_, _, rfl⟩
theorem EncodeKind.zopen (F : Frame) : EncodeKind.Statement (.zopen F) := ⟨_, _, rfl⟩
theorem EncodeKind.zrsvEc2 (F : Frame) : EncodeKind.Statement (.zrsvEc2 F) := ⟨_, _, rfl⟩
theorem EncodeKind.zrsvEc3 (F : Frame) : EncodeKind.Statement (.zrsvEc3 F) := ⟨_, _, rfl⟩
theorem EncodeKind.zrsvT1 (F : Frame) : EncodeKind.Statement (.zrsvT1 F) := ⟨_, _, rfl⟩
theorem EncodeKind.zdrop (F : Frame) : EncodeKind.Statement (.zdrop F) := ⟨_, _, rfl⟩
theorem EncodeKind.kevt (F : Frame) : EncodeKind.Statement (.kevt F) := ⟨_, _, rfl⟩
theorem EncodeKind.stop : EncodeKind.Statement .stop := ⟨_, rfl⟩
theorem EncodeKind.start : EncodeKind.Statement .start := ⟨_, rfl⟩
theorem EncodeKind.wrCfg (v : Word32) : EncodeKind.Statement (.wrCfg v) := ⟨_, rfl⟩
theorem EncodeKind.wrTmo (v : Word32) : EncodeKind.Statement (.wrTmo v) := ⟨_, rfl⟩
theorem EncodeKind.wrCamkey (i : CamIndex) (v : Word32) : EncodeKind.Statement (.wrCamkey i v) := ⟨_, rfl⟩
theorem EncodeKind.wrCamdata (i : CamIndex) (v : Word32) : EncodeKind.Statement (.wrCamdata i v) := ⟨_, rfl⟩
theorem EncodeKind.wrIgn (a : Addr) (v : Word32) : EncodeKind.Statement (.wrIgn a v) := ⟨_, rfl⟩
theorem EncodeKind.rdCtrl : EncodeKind.Statement .rdCtrl := ⟨_, rfl⟩
theorem EncodeKind.rdStatus : EncodeKind.Statement .rdStatus := ⟨_, rfl⟩
theorem EncodeKind.rdCfg : EncodeKind.Statement .rdCfg := ⟨_, rfl⟩
theorem EncodeKind.rdTmo : EncodeKind.Statement .rdTmo := ⟨_, rfl⟩
theorem EncodeKind.rdBuf : EncodeKind.Statement .rdBuf := ⟨_, rfl⟩
theorem EncodeKind.rdId : EncodeKind.Statement .rdId := ⟨_, rfl⟩
theorem EncodeKind.rdCamkey (i : CamIndex) : EncodeKind.Statement (.rdCamkey i) := ⟨_, rfl⟩
theorem EncodeKind.rdCamdata (i : CamIndex) : EncodeKind.Statement (.rdCamdata i) := ⟨_, rfl⟩
theorem EncodeKind.rdRsvd (a : Addr) : EncodeKind.Statement (.rdRsvd a) := ⟨_, rfl⟩
theorem EncodeKind.unpType (F : Frame) : EncodeKind.Statement (.unpType F) := ⟨_, _, rfl⟩
theorem EncodeKind.unpCode (F : Frame) : EncodeKind.Statement (.unpCode F) := ⟨_, _, rfl⟩
theorem EncodeKind.unpZone (F : Frame) : EncodeKind.Statement (.unpZone F) := ⟨_, _, rfl⟩
theorem EncodeKind.unpHours (F : Frame) : EncodeKind.Statement (.unpHours F) := ⟨_, _, rfl⟩
theorem EncodeKind.unpMinutes (F : Frame) : EncodeKind.Statement (.unpMinutes F) := ⟨_, _, rfl⟩
theorem EncodeKind.unpKey (F : Frame) : EncodeKind.Statement (.unpKey F) := ⟨_, _, rfl⟩

end Sys2Proof.Laws
end

