-- ==== Sys2Proof/Machine/Consumer.lean ====
section
/-! DEFINITION. What the spec says a consumer makes of the output events. "The rendering is not part of the hardware"
(60_exceptions.md R247) and nothing here is called by the machine (notes/assumptions/14.md). Texts are lists of characters. -/

namespace Sys2Proof.Machine

/-- A byte as `0x` and two lowercase hexadecimal digits (60_exceptions.md R247, 92_eei_decisions.md D22). -/
def renderByte (b : Byte) : List Char :=
  ['0', 'x', Nat.digitChar (b.toNat / 16), Nat.digitChar (b.toNat % 16)]

/-- `RAW(F)` as the debug channel shows it: "the four bytes in order ... separated by single spaces" (60_exceptions.md R247). -/
def renderRaw (F : Frame) : List Char :=
  renderByte (F.extractLsb' 24 8) ++ ' ' :: renderByte (F.extractLsb' 16 8) ++ ' ' :: renderByte (F.extractLsb' 8 8) ++
    ' ' :: renderByte (F.extractLsb' 0 8)

/-- The channel name of a static intent, `<prefix>zones/<zone>` with `<zone>` in decimal (42_dispatch_cam.md R190). The spec
gives no prefix, so it is an argument. -/
def zoneChannel (before : List Char) (i : Intent) : List Char :=
  before ++ ['z', 'o', 'n', 'e', 's', '/'] ++ Nat.toDigits 10 i.chan.toNat

/-- The payload text of a static intent: 1 is OPEN, 0 is CLOSED (42_dispatch_cam.md R176). -/
def zonePayload (i : Intent) : List Char :=
  if i.payl = 1 then ['O', 'P', 'E', 'N'] else ['C', 'L', 'O', 'S', 'E', 'D']

/-- The source's outbound channels (60_exceptions.md R236, R249). -/
inductive Route where
  /-- the debug channel of raw hex dumps -/
  | debugDump
  /-- optionally logged at debug level -/
  | debugLogOptional
  /-- a publish -/
  | publish
  /-- not logged as an error -/
  | silent
  /-- the log, at warning level -/
  | warningLog
  /-- the external collaborator responsible for reconnection policy -/
  | supervisor
deriving DecidableEq, Repr

/-- Where each event goes, "the consumer's" business (60_exceptions.md R236). -/
def OutEvent.route : OutEvent → Route
  | .raw _ => .debugDump
  | .decoded _ => .debugLogOptional
  | .intent _ => .publish
  | .timeout => .silent
  | .partialFrame _ _ _ _ => .warningLog
  | .fatal _ => .supervisor

end Sys2Proof.Machine
end

