-- ==== Sys2Proof/Tests/Slice0.lean ====
section
/-! SUPPORT. The model's own tests. Expected words and results are those of 30_encoding.md and of the vectors of
95_test_vectors.md, whose ids the names carry; the witnesses show that the hypotheses of each statement can be met. -/

open Sys2Proof Sys2Proof.Machine

namespace Sys2Proof.Tests

/-! ## Small states and a way to look at an outcome -/

/-- The outcome is a next state with `p`. -/
def nextWith (o : Host.Outcome State Fault Refusal) (p : State → Bool) : Bool :=
  match o with
  | .next t => p t
  | .fault _ => false
  | .refused _ => false

/-- One cycle with the stimulus `(sw, hw)`. -/
def onCycle (s : State) (sw : StreamWord) (hw : HostWord) (p : State → Bool) : Bool :=
  nextWith (step (s.present ⟨sw, hw⟩)) p

/-- RUNNING with `n` bytes held, `reload` and `window` in the timer. -/
def running (n : BitVec 2) (b0 b1 b2 : Byte) (reload window : BitVec 8) : State :=
  { State.reset with
    run := .running, cnt := n, buf0 := b0, buf1 := b1, buf2 := b2, tmoReload := reload, tmoCnt := window }

/-- RUNNING at the start of a frame, everything else at reset. -/
def fresh : State := running 0 0 0 0 1 1

/-- STOPPED. -/
def stopped : State := { State.reset with run := .stopped }

/-- RUNNING under a layout with the first three bytes of a frame held and some rules loaded. -/
def inFrame (l : Layout) (b0 b1 b2 : Byte) (cam : List CamEntry) : State :=
  { running 3 b0 b1 b2 1 1 with layout := l, cam := cam }

/-- The part of the state a frame synchronizer vector shows. -/
def held (s : State) : Run × Bool × BitVec 2 × Byte × Byte × Byte × BitVec 8 :=
  (s.run, s.stopReq, s.cnt, s.buf0, s.buf1, s.buf2, s.tmoCnt)

/-! ## WellFormed refuses what is no operation of a PFC with 16 entries -/

theorem test_wf_zclosed_refuses_zone_9 : (Instr.zclosed 0x00900000).wellFormed 16 = false := by decide
theorem test_wf_zclosed_refuses_open : (Instr.zclosed 0x0480BBB0).wellFormed 16 = false := by decide
theorem test_wf_zopen_refuses_zone_0 : (Instr.zopen 0x04000000).wellFormed 16 = false := by decide
theorem test_wf_zrsvEc2_refuses_type_1 : (Instr.zrsvEc2 0x18100000).wellFormed 16 = false := by decide
theorem test_wf_zrsvEc3_refuses_code_2 : (Instr.zrsvEc3 0x08100000).wellFormed 16 = false := by decide
theorem test_wf_zrsvT1_refuses_type_0 : (Instr.zrsvT1 0x0C100000).wellFormed 16 = false := by decide
theorem test_wf_zdrop_refuses_zone_8 : (Instr.zdrop 0x00800000).wellFormed 16 = false := by decide
theorem test_wf_zdrop_refuses_code_2 : (Instr.zdrop 0x08000000).wellFormed 16 = false := by decide
theorem test_wf_wrCamkey_refuses_entry_16 : (Instr.wrCamkey 16 0).wellFormed 16 = false := by decide
theorem test_wf_wrCamdata_refuses_entry_16 : (Instr.wrCamdata 16 0).wellFormed 16 = false := by decide
theorem test_wf_wrIgn_refuses_tmo : (Instr.wrIgn 0x03 9).wellFormed 16 = false := by decide
theorem test_wf_wrIgn_refuses_start : (Instr.wrIgn 0x00 1).wellFormed 16 = false := by decide
theorem test_wf_rdCamkey_refuses_entry_16 : (Instr.rdCamkey 16).wellFormed 16 = false := by decide
theorem test_wf_rdCamdata_refuses_entry_63 : (Instr.rdCamdata 63).wellFormed 16 = false := by decide
theorem test_wf_rdRsvd_refuses_id : (Instr.rdRsvd 0x05).wellFormed 16 = false := by decide
theorem test_wf_accepts_last_entry : (Instr.wrCamkey 15 0).wellFormed 16 = true := by decide

/-! ## Decoding, words written out from the spec's encodings (R96, R97, R100 to R105) -/

theorem test_decode_stream :
    decodeTableWord 16 0x800 = some .reset ∧ decodeTableWord 16 0x1AA = some (.rxbyte 0xAA) ∧
    decodeTableWord 16 0x200 = some .rxclose ∧ decodeTableWord 16 0x400 = some .tick ∧
    decodeTableWord 16 0x0FF = some .nop := by decide

theorem test_decode_zone_classes :
    decodeTableWord 32 0x0011081E = some (.zclosed 0x0011081E) ∧
    decodeTableWord 32 0x0480BBB0 = some (.zopen 0x0480BBB0) ∧
    decodeTableWord 32 0x08100000 = some (.zrsvEc2 0x08100000) ∧
    decodeTableWord 32 0x0C100000 = some (.zrsvEc3 0x0C100000) ∧
    decodeTableWord 32 0x18100000 = some (.zrsvT1 0x18100000) ∧
    decodeTableWord 32 0x00900000 = some (.zdrop 0x00900000) := by decide

theorem test_decode_more_zone_frames :
    decodeFrame .bitfield 0x00000000 = .zdrop 0x00000000 ∧ decodeFrame .bitfield 0x01000000 = .zdrop 0x01000000 ∧
    decodeFrame .bitfield 0xE21F040F = .zclosed 0xE21F040F ∧ decodeFrame .bitfield 0x04100010 = .zopen 0x04100010 ∧
    decodeFrame .bitfield 0xFFFFFFFF = .zrsvT1 0xFFFFFFFF := by decide

theorem test_decode_keyed_event :
    decodeWord 16 .codeBytes 32 0x01020000 = .ok (some (.kevt 0x01020000)) ∧
    decodeFrame .codeBytes 0x0011081E = .kevt 0x0011081E := ⟨rfl, rfl⟩

theorem test_decode_slices :
    decode 16 (.frame .bitfield 0x0011081E) = [.unpType 0x0011081E, .unpCode 0x0011081E, .unpZone 0x0011081E,
      .unpHours 0x0011081E, .unpMinutes 0x0011081E, .zclosed 0x0011081E] ∧
    decode 16 (.frame .codeBytes 0x01020000) = [.unpKey 0x01020000, .unpHours 0x01020000, .unpMinutes 0x01020000,
      .kevt 0x01020000] := by decide

theorem test_decode_writes :
    decodeTableWord 48 0x20000000003 = some .stop ∧ decodeTableWord 48 0x20000000001 = some .start ∧
    decodeTableWord 48 0x202FFFFFFFE = some (.wrCfg 0xFFFFFFFE) ∧
    decodeTableWord 48 0x203000001FF = some (.wrTmo 0x1FF) ∧
    decodeTableWord 48 0x24280000102 = some (.wrCamkey 1 0x80000102) ∧
    decodeTableWord 48 0x24100070009 = some (.wrCamdata 0 0x00070009) ∧
    decodeTableWord 48 0x26080000102 = some (.wrIgn 0x60 0x80000102) := by decide

theorem test_decode_ignored_ctrl_writes :
    decodeTableWord 48 0x20000000000 = some (.wrIgn 0x00 0) ∧
    decodeTableWord 48 0x200FFFFFFFC = some (.wrIgn 0x00 0xFFFFFFFC) := by decide

theorem test_decode_reads :
    decodeTableWord 48 0x10000000000 = some .rdCtrl ∧ decodeTableWord 48 0x10100000000 = some .rdStatus ∧
    decodeTableWord 48 0x10200000000 = some .rdCfg ∧ decodeTableWord 48 0x10300000000 = some .rdTmo ∧
    decodeTableWord 48 0x10400000000 = some .rdBuf ∧ decodeTableWord 48 0x10500000000 = some .rdId ∧
    decodeTableWord 48 0x14200000000 = some (.rdCamkey 1) ∧ decodeTableWord 48 0x14100000000 = some (.rdCamdata 0) ∧
    decodeTableWord 48 0x16000000000 = some (.rdRsvd 0x60) := by decide

/-- "not exclusive of one another except that RESET overrides all" (R100). -/
theorem test_decode_shared_cycle :
    decode 16 (.cycle ⟨0x71E, 0x30300000009⟩) =
      [.rdTmo, .rxbyte 0x1E, .rxclose, .tick, .wrTmo 9] ∧
    decode 16 (.cycle ⟨0xFFF, 0x30100000001⟩) = [.reset] := by decide

theorem test_decode_rejects_by_name :
    decodeWord 16 .bitfield 16 0x1800 = .error .streamWordTooWide ∧
    decodeWord 16 .bitfield 32 0x100000000 = .error .frameTooWide ∧
    decodeWord 16 .bitfield 48 0x40000000000 = .error .hostWordTooWide ∧
    decodeWord 16 .bitfield 64 0 = .error .noSuchFormat := ⟨rfl, rfl, rfl, rfl⟩

/-! ## Placing a table word: the very next step runs it -/

theorem test_withFetchWord_host :
    nextWith (step (State.reset.withFetchWord 48 0x20300000009)) (fun t => t.tmoReload == 9) = true := by decide

theorem test_withFetchWord_stream :
    nextWith (step (State.reset.withFetchWord 16 0x800)) (fun t => decide (t = State.reset)) = true := by decide

theorem test_withFetchWord_frame :
    nextWith (step (State.reset.withFetchWord 32 0x0011081E))
      (fun t => t.out == [.raw 0x0011081E, .decoded (.zone 0 0 1 1 1), .intent ⟨.static, 1, 0, 0⟩]) = true := by decide

/-! ## The stream and reset operations -/

theorem test_RV1_reset :
    onCycle { running 2 1 2 0 9 4 with layout := .codeBytes, cam := [⟨true, 7, 1, 1⟩] } 0x800 0
      (fun t => t.arch == (State.ofRules 1).arch && t.out.isEmpty) = true := by decide

theorem test_QV12_reset_overrides :
    onCycle (running 2 1 2 0 1 1) 0xFFF 0x30100000001
      (fun t => t.arch == State.reset.arch && t.out.isEmpty && t.rdata == 0) = true := by decide

theorem test_FV1_first_byte_reloads :
    onCycle (running 0 0 0 0 3 1) 0x155 0 (fun t => held t == (.running, false, 1, 0x55, 0, 0, 3)) = true := by decide

theorem test_FV2_second_byte_does_not :
    onCycle (running 1 0 0 0 3 2) 0x111 0 (fun t => held t == (.running, false, 2, 0, 0x11, 0, 2)) = true := by decide

theorem test_FV13_fourth_byte :
    onCycle (running 3 0 0x11 8 4 1) 0x11E 0
      (fun t => held t == (.running, false, 0, 0, 0, 0, 4) &&
        t.out == [.raw 0x0011081E, .decoded (.zone 0 0 1 1 1), .intent ⟨.static, 1, 0, 0⟩]) = true := by decide

theorem test_FV9_closure_in_frame :
    onCycle (running 2 1 2 0 1 1) 0x200 0
      (fun t => held t == (.stopped, false, 0, 0, 0, 0, 0) && t.out == [.partialFrame 2 1 2 0, .fatal 3]) = true := by
  decide

theorem test_FV8_closure_between_frames :
    onCycle fresh 0x200 0 (fun t => t.run == .stopped && t.out == [.fatal 3]) = true := by decide

theorem test_FV6_tick_expires_frame :
    onCycle (running 3 0xAA 0xBB 0xCC 5 1) 0x400 0
      (fun t => held t == (.running, false, 0, 0, 0, 0, 5) && t.out == [.partialFrame 3 0xAA 0xBB 0xCC]) = true := by
  decide

theorem test_FV12_timeout_takes_deferred_stop :
    onCycle { running 0 0 0 0 5 1 with stopReq := true } 0x400 0
      (fun t => held t == (.stopped, false, 0, 0, 0, 0, 0) && t.out == [.timeout]) = true := by decide

theorem test_FV10_gate_in_starting :
    onCycle State.reset 0x777 0 (fun t => t.arch == State.reset.arch && t.out.isEmpty) = true := by decide

theorem test_idle_cycle :
    onCycle (running 2 1 2 0 3 2) 0x0FF 0 (fun t => held t == (.running, false, 2, 1, 2, 0, 2) && t.out.isEmpty) =
      true := by decide

/-! ## Simultaneous inputs (R200) -/

theorem test_QV2_byte_then_tick :
    onCycle (running 0 0 0 0 3 1) 0x5AB 0 (fun t => held t == (.running, false, 1, 0xAB, 0, 0, 2) && t.out.isEmpty) =
      true := by decide

theorem test_QV4_byte_then_closure :
    onCycle (running 3 0 0x11 8 1 1) 0x31E 0
      (fun t => t.run == .stopped && t.out ==
        [.raw 0x0011081E, .decoded (.zone 0 0 1 1 1), .intent ⟨.static, 1, 0, 0⟩, .fatal 3]) = true := by decide

theorem test_QV6_stop_after_the_frame :
    onCycle (running 3 0 0x11 8 1 1) 0x11E 0x20000000002
      (fun t => held t == (.running, true, 0, 0, 0, 0, 1) && t.out.length == 3) = true := by decide

theorem test_QV7_stopped_by_the_frame :
    onCycle { running 3 0 0x11 8 1 1 with stopReq := true } 0x71E 0
      (fun t => held t == (.stopped, false, 0, 0, 0, 0, 0) && t.out.length == 3) = true := by decide

theorem test_QV8_closure_gates_tick :
    onCycle fresh 0x600 0 (fun t => t.run == .stopped && t.out == [.fatal 3]) = true := by decide

theorem test_QV10_byte_met_starting :
    onCycle State.reset 0x1AA 0x20000000001 (fun t => held t == (.running, false, 0, 0, 0, 0, 1)) = true := by decide

theorem test_QV11_read_sees_old_value :
    onCycle State.reset 0 0x30300000009 (fun t => t.rdata == 1 && t.tmoReload == 9) = true := by decide

/-! ## The static strategy and the frame classes -/

/-- The events of one frame class on a state with nothing seen. -/
def classEvents (i : Instr) (cam : List CamEntry) (es : List OutEvent) : Bool :=
  nextWith (exec i { State.reset with cam := cam }) (fun t => t.out == es && t.trace == es)

theorem test_ZV9_zclosed : classEvents (.zclosed 0x0010FBF0) []
    [.raw 0x0010FBF0, .decoded (.zone 0 0 1 31 63), .intent ⟨.static, 1, 0, 0⟩] = true := by decide
theorem test_ZV5_zopen : classEvents (.zopen 0x0480BBB0) []
    [.raw 0x0480BBB0, .decoded (.zone 0 1 8 23 59), .intent ⟨.static, 8, 1, 0⟩] = true := by decide
theorem test_ZV7_zrsvEc2 : classEvents (.zrsvEc2 0x08100000) []
    [.raw 0x08100000, .decoded (.zone 0 2 1 0 0)] = true := by decide
theorem test_UV10_zrsvEc3 : classEvents (.zrsvEc3 0x0C100000) []
    [.raw 0x0C100000, .decoded (.zone 0 3 1 0 0)] = true := by decide
theorem test_ZV8_zrsvT1 : classEvents (.zrsvT1 0x10100000) []
    [.raw 0x10100000, .decoded (.zone 1 0 1 0 0)] = true := by decide
theorem test_ZV4_zdrop : classEvents (.zdrop 0x00900000) []
    [.raw 0x00900000, .decoded (.zone 0 0 9 0 0)] = true := by decide
theorem test_MV1_kevt_first_match_wins :
    classEvents (.kevt 0x01020000) [⟨true, 0x0102, 1, 1⟩, ⟨true, 0x0102, 2, 2⟩]
      [.raw 0x01020000, .decoded (.key 1 2 0 0), .intent ⟨.table, 1, 1, 0⟩] = true := by decide
theorem test_MV2_kevt_skips_invalid :
    classEvents (.kevt 0x01020000) [⟨false, 0x0102, 1, 1⟩, ⟨true, 0x0102, 2, 2⟩]
      [.raw 0x01020000, .decoded (.key 1 2 0 0), .intent ⟨.table, 2, 2, 1⟩] = true := by decide

/-- The output list of the cycle of a frame's fourth byte. -/
def frameGives (s : State) (b : Byte) (es : List OutEvent) : Bool :=
  nextWith (exec (.rxbyte b) s) (fun t => t.out == es)

theorem test_MV3_reset_entries_never_match :
    frameGives (inFrame .codeBytes 0 0 0 State.reset.cam) 0 [.raw 0, .decoded (.key 0 0 0 0)] = true := by decide
theorem test_MV6_key_byte_order :
    frameGives (inFrame .codeBytes 2 1 0 [⟨true, 0x0102, 1, 1⟩]) 0 [.raw 0x02010000, .decoded (.key 2 1 0 0)] =
      true := by decide
theorem test_MV8_bitfield_ignores_cam :
    frameGives (inFrame .bitfield 0 0x11 8 [⟨true, 0x0011, 7, 9⟩]) 0x1E
      [.raw 0x0011081E, .decoded (.zone 0 0 1 1 1), .intent ⟨.static, 1, 0, 0⟩] = true := by decide
theorem test_MV9_layout_alone_decides :
    frameGives (inFrame .codeBytes 0 0x11 8 [⟨true, 0x0011, 7, 9⟩]) 0x1E
      [.raw 0x0011081E, .decoded (.key 0 0x11 1 1), .intent ⟨.table, 7, 9, 0⟩] = true := by decide
theorem test_V3_no_rule_no_publish :
    frameGives (inFrame .codeBytes 0xFF 0xFF 0xFF []) 0xFF [.raw 0xFFFFFFFF, .decoded (.key 0xFF 0xFF 31 63)] =
      true := by decide

/-! ## The unpacker -/

theorem test_UV3_slices :
    nextWith (runOps (decodeSlices .bitfield 0x0480BBB0) State.reset)
      (fun t => t.unp == ⟨0, 1, 8, 0, 23, 59⟩) = true := by decide
theorem test_UV6_zone_straddles_bytes :
    nextWith (exec (.unpZone 0x01000000) State.reset) (fun t => t.unp.zone == 16) = true := by decide
theorem test_UV11_type :
    nextWith (exec (.unpType 0x10100000) State.reset) (fun t => t.unp.typeBit == 1) = true := by decide
theorem test_UV12_code :
    nextWith (exec (.unpCode 0x18100000) State.reset) (fun t => t.unp.eventCode == 2) = true := by decide
theorem test_UV19_hours :
    nextWith (exec (.unpHours 0x0010F800) State.reset) (fun t => t.unp.hours == 31 && t.unp.minutes == 0) = true := by
  decide
theorem test_UV18_minutes :
    nextWith (exec (.unpMinutes 0x00100300) State.reset) (fun t => t.unp.minutes == 48 && t.unp.hours == 0) = true := by
  decide
theorem test_UV13_key :
    nextWith (exec (.unpKey 0xE21F040F) { State.reset with layout := .codeBytes }) (fun t => t.unp.key == 0xE21F) =
      true := by decide
theorem test_UV14_all_ones :
    decodeEvent .bitfield 0xFFFFFFFF = .zone 1 3 31 31 63 ∧ decodeEvent .codeBytes 0xFFFFFFFF = .key 0xFF 0xFF 31 63 := by
  decide
theorem test_V5_pack_samples :
    packZ 0 0 1 1 1 = 0x00100810 ∧ packZ 0 1 8 23 59 = 0x0480BBB0 ∧ packZ 1 3 31 31 63 = 0x1DF0FBF0 ∧
    packZ 0 1 3 8 5 = 0x04304050 := by decide

/-! ## Host operations -/

theorem test_HV2_wrTmo_zero_low_byte :
    onCycle { State.reset with tmoReload := 7 } 0 0x20300000100 (fun t => t.tmoReload == 1) = true := by decide
theorem test_HV3_wrTmo :
    onCycle State.reset 0 0x203000001FF (fun t => t.tmoReload == 255) = true := by decide
theorem test_HV4_wrCfg_bit_0_alone :
    onCycle { State.reset with layout := .codeBytes } 0 0x202FFFFFFFE (fun t => t.layout == .bitfield) = true := by decide
theorem test_HV5_wrCfg_locked :
    onCycle fresh 0 0x20200000001 (fun t => t.layout == .bitfield) = true := by decide
theorem test_HV6_wrCamkey :
    onCycle State.reset 0 0x24080FF0102 (fun t => t.cam[0]? == some ⟨true, 0x0102, 0, 0⟩) = true := by decide
theorem test_wrCamkey_locked :
    onCycle fresh 0 0x24080FF0102 (fun t => t.cam == State.reset.cam) = true := by decide
theorem test_HV18_wrCamdata :
    onCycle State.reset 0 0x24100070009 (fun t => t.cam[0]? == some ⟨false, 0, 7, 9⟩) = true := by decide
theorem test_wrCamdata_locked :
    onCycle stopped 0 0x24100070009 (fun t => t.cam == State.reset.cam) = true := by decide
theorem test_HV7_wrIgn_past_last_entry :
    onCycle State.reset 0 0x26080000102 (fun t => t.arch == State.reset.arch) = true := by decide
theorem test_HV17_wrIgn_status :
    onCycle State.reset 0 0x201FFFFFFFF (fun t => t.arch == State.reset.arch) = true := by decide
theorem test_HV12_stop : onCycle State.reset 0 0x20000000002 (fun t => t.run == .stopped) = true := by decide
theorem test_HV13_stop_wins : onCycle State.reset 0 0x20000000003 (fun t => t.run == .stopped) = true := by decide
theorem test_start :
    onCycle { State.reset with tmoReload := 2 } 0 0x20000000001 (fun t => held t == (.running, false, 0, 0, 0, 0, 2)) =
      true := by decide
theorem test_HV15_start_when_stopped :
    onCycle stopped 0 0x20000000001 (fun t => t.arch == stopped.arch) = true := by decide

theorem test_HV9_rdStatus :
    onCycle (running 2 0xAA 0xBB 0 3 3) 0 0x10100000000 (fun t => t.rdata == 0x309) = true := by decide
theorem test_P4b_rdStatus_with_stop_req :
    onCycle { running 2 0 0x11 0 1 1 with stopReq := true } 0 0x10100000000 (fun t => t.rdata == 0x119) = true := by decide
theorem test_HV10_rdBuf :
    onCycle (running 2 0xAA 0xBB 0 3 3) 0 0x10400000000 (fun t => t.rdata == 0xAABB0000) = true := by decide
theorem test_HV11_rdTmo : onCycle State.reset 0 0x10300000000 (fun t => t.rdata == 1) = true := by decide
theorem test_rdCfg :
    onCycle { State.reset with layout := .codeBytes } 0 0x10200000000 (fun t => t.rdata == 1) = true := by decide
theorem test_HV11_rdId : onCycle State.reset 0 0x10500000000 (fun t => t.rdata == 0x410) = true := by decide
theorem test_HV11_rdCtrl : onCycle fresh 0 0x10000000000 (fun t => t.rdata == 0 && t.reads == [0]) = true := by decide
theorem test_HV6_rdCamkey :
    onCycle { State.reset with cam := [⟨true, 0x0102, 0, 0⟩] } 0 0x14000000000 (fun t => t.rdata == 0x80000102) = true := by
  decide
theorem test_HV18_rdCamdata :
    onCycle { State.reset with cam := [⟨false, 0, 7, 9⟩] } 0 0x14100000000 (fun t => t.rdata == 0x00070009) = true := by
  decide
theorem test_HV8_rdRsvd : onCycle fresh 0 0x16000000000 (fun t => t.rdata == 0 && t.reads == [0]) = true := by decide

/-! ## Ports, the script notation, the consumer -/

theorem test_V1_ports :
    onCycle (running 3 0 0x11 8 1 1) 0x11E 0 (fun t => decide (t.ports =
      ⟨true, 0x0011081E, true, 0, ⟨0, 0, 1, 0, 1, 1⟩, true, 0, 1, 0, 0, false, false, 0, 0, false, 0, 1, 0⟩)) = true := by
  decide
theorem test_partial_port :
    onCycle (running 2 0xAA 0xBB 0 2 1) 0x400 0
      (fun t => t.ports.partValid && t.ports.partLen == 2 && t.ports.partBytes == 0xAABB00 && !t.ports.timeout) = true := by
  decide
theorem test_script_words :
    Script.byte 0x1E = ⟨0x11E, 0⟩ ∧ Script.wr 0x03 2 = ⟨0, 0x20300000002⟩ ∧ Script.rd 0x42 = ⟨0, 0x14200000000⟩ ∧
    Script.rule 0 1 2 1 1 = [⟨0, 0x24100010001⟩, ⟨0, 0x24080000102⟩] := by decide
theorem test_V3_debug_dump : String.ofList (renderRaw 0xFFFFFFFF) = "0xff 0xff 0xff 0xff" := by decide
theorem test_V1_publish :
    String.ofList (zoneChannel [] ⟨.static, 1, 0, 0⟩) = "zones/1" ∧
    String.ofList (zonePayload ⟨.static, 1, 0, 0⟩) = "CLOSED" := by decide

/-! ## Witnesses: every hypothesis of a statement is met by something, each clause at its boundaries -/

/-- A state about to take one stimulus. -/
def about (s : State) (x : Stimulus) : State := { s with stim := [x] }

theorem fresh_inv : fresh.Inv where
  quiet := by decide
  window := by decide
  reload := by decide
  buffer := by decide
  rules := by decide
  seen := ⟨[], rfl⟩

/-- A state with bytes held and a stop waiting, in the invariants. -/
def stopping : State := { running 2 1 2 0 3 3 with stopReq := true }

theorem stopping_inv : stopping.Inv where
  quiet := by decide
  window := by decide
  reload := by decide
  buffer := by decide
  rules := by decide
  seen := ⟨[], rfl⟩

theorem witness_ResetGivesState0 :
    (∃ (s : State) (x : Stimulus) (rest : List Stimulus), s.stim = x :: rest ∧ x.sw.getLsbD 11 = true) ∧
    (∃ s t : State, step s = .next t ∧ s.run = .stopped ∧ t.run ≠ .stopped) ∧
    (∃ s t : State, step s = .next t ∧ s.run ≠ .starting ∧ t.config ≠ s.config) :=
  ⟨⟨about (running 2 1 2 0 1 1) ⟨0xFFF, 0x30100000001⟩, ⟨0xFFF, 0x30100000001⟩, [], by decide⟩,
    ⟨about stopped ⟨0x800, 0⟩, _, rfl, by decide⟩, ⟨about (running 0 0 0 0 9 9) ⟨0x800, 0⟩, _, rfl, by decide⟩⟩

theorem witness_EmptyCycleChangesNothing :
    (∃ s : State, s.stim = [] ∧ s.nextStimulus.sw &&& 0xF00 = 0 ∧ s.nextStimulus.hw.getLsbD 41 = false ∧
      s.nextStimulus.hw.getLsbD 40 = false) ∧
    (∃ s : State, s.nextStimulus = ⟨0x0FF, 0x0FFFFFFFFFF⟩ ∧ s.nextStimulus.sw &&& 0xF00 = 0 ∧
      s.nextStimulus.hw.getLsbD 41 = false ∧ s.nextStimulus.hw.getLsbD 40 = false) :=
  ⟨⟨fresh, by decide⟩, ⟨about fresh ⟨0x0FF, 0x0FFFFFFFFFF⟩, by decide⟩⟩

theorem witness_StreamGatedOutsideRunning :
    (∃ (s : State) (sw : StreamWord) (hw : HostWord) (rest : List Stimulus), s.run = .starting ∧ s.run ≠ .running ∧
      sw.getLsbD 11 = false ∧ s.stim = ⟨sw, hw⟩ :: rest) ∧
    (∃ (s : State) (sw : StreamWord) (hw : HostWord) (rest : List Stimulus), s.run = .stopped ∧ s.run ≠ .running ∧
      sw.getLsbD 11 = false ∧ s.stim = ⟨sw, hw⟩ :: rest) :=
  ⟨⟨about State.reset ⟨0x777, 0x20000000001⟩, 0x777, 0x20000000001, [], by decide⟩,
    ⟨about stopped ⟨0x777, 0⟩, 0x777, 0, [], by decide⟩⟩

theorem witness_EarlyBytesAreStored :
    (∃ s : State, s.cnt = 0 ∧ s.run = .running ∧ s.cnt.toNat ≤ 2) ∧
    (∃ s : State, s.cnt = 1 ∧ s.run = .running ∧ s.cnt.toNat ≤ 2) ∧
    (∃ s : State, s.cnt = 2 ∧ s.run = .running ∧ s.cnt.toNat ≤ 2) :=
  ⟨⟨fresh, by decide⟩, ⟨running 1 7 0 0 2 1, by decide⟩, ⟨running 2 7 8 0 2 1, by decide⟩⟩

theorem witness_FourthByteCompletesFrame :
    ∃ (s : State) (b : Byte) (F : Frame), s.run = .running ∧ s.cnt = 3 ∧ F.extractLsb' 24 8 = s.buf0 ∧
      F.extractLsb' 16 8 = s.buf1 ∧ F.extractLsb' 8 8 = s.buf2 ∧ F.extractLsb' 0 8 = b :=
  ⟨running 3 0x04 0x80 0xBB 2 1, 0xB0, 0x0480BBB0, by decide⟩

theorem witness_TickCountsDownOrExpires :
    (∃ s : State, s.run = .running ∧ s.tmoCnt = 2 ∧ 1 < s.tmoCnt.toNat) ∧
    (∃ s : State, s.run = .running ∧ s.tmoCnt = 1 ∧ s.tmoCnt.toNat ≤ 1 ∧ s.cnt = 0) ∧
    (∃ s : State, s.run = .running ∧ s.tmoCnt = 1 ∧ s.tmoCnt.toNat ≤ 1 ∧ s.cnt = 3) ∧
    (∃ s : State, s.run = .running ∧ s.tmoCnt = 0 ∧ s.tmoCnt.toNat ≤ 1) :=
  ⟨⟨running 0 0 0 0 2 2, by decide⟩, ⟨fresh, by decide⟩, ⟨running 3 1 2 3 1 1, by decide⟩,
    ⟨running 0 0 0 0 1 0, by decide⟩⟩

theorem witness_ClosureDisconnects :
    (∃ s : State, s.run = .running ∧ s.cnt = 0) ∧ (∃ s : State, s.run = .running ∧ s.cnt = 1) ∧
    (∃ s : State, s.run = .running ∧ s.cnt = 3) :=
  ⟨⟨fresh, by decide⟩, ⟨running 1 7 0 0 1 1, by decide⟩, ⟨running 3 1 2 3 1 1, by decide⟩⟩

theorem witness_ZoneSlicesExtract : ∃ s : State, s.layout = .bitfield := ⟨State.reset, by decide⟩

theorem witness_KeySliceExtracts : ∃ s : State, s.layout = .codeBytes :=
  ⟨{ State.reset with layout := .codeBytes }, by decide⟩

theorem witness_SlicesDriveZeroUnderOtherLayout :
    (∃ s : State, s.layout = .codeBytes) ∧ (∃ s : State, s.layout = .bitfield) :=
  ⟨⟨{ State.reset with layout := .codeBytes }, by decide⟩, ⟨State.reset, by decide⟩⟩

theorem witness_ZoneFramesPublish :
    (∃ F : Frame, (F.extractLsb' 20 5).toNat = 1 ∧ F &&& 0x1C000000 = 0x00000000) ∧
    (∃ F : Frame, (F.extractLsb' 20 5).toNat = 8 ∧ F &&& 0x1C000000 = 0x00000000) ∧
    (∃ F : Frame, (F.extractLsb' 20 5).toNat = 1 ∧ F &&& 0x1C000000 = 0x04000000) ∧
    (∃ F : Frame, (F.extractLsb' 20 5).toNat = 8 ∧ F &&& 0x1C000000 = 0x04000000) :=
  ⟨⟨0xE21F040F, by decide⟩, ⟨0x00800000, by decide⟩, ⟨0x04100010, by decide⟩, ⟨0x0480BBB0, by decide⟩⟩

theorem witness_DroppedFramesGiveNoIntent :
    (∃ F : Frame, F &&& 0x1C000000 = 0x08000000) ∧ (∃ F : Frame, F &&& 0x1C000000 = 0x0C000000) ∧
    (∃ F : Frame, F &&& 0x10000000 = 0x10000000) ∧
    (∃ F : Frame, F &&& 0x18000000 = 0x00000000 ∧ (F.extractLsb' 20 5).toNat = 0) ∧
    (∃ F : Frame, F &&& 0x18000000 = 0x00000000 ∧ (F.extractLsb' 20 5).toNat = 9 ∧ 9 ≤ (F.extractLsb' 20 5).toNat) ∧
    (∃ F : Frame, F &&& 0x18000000 = 0x00000000 ∧ (F.extractLsb' 20 5).toNat = 31 ∧ 9 ≤ (F.extractLsb' 20 5).toNat) :=
  ⟨⟨0x08100000, by decide⟩, ⟨0x0C100000, by decide⟩, ⟨0x18100000, by decide⟩, ⟨0x04000000, by decide⟩,
    ⟨0x00900000, by decide⟩, ⟨0x01F00000, by decide⟩⟩

theorem witness_KeyedEventHitPublishes :
    ∃ (s : State) (F : Frame) (i : Nat) (e : CamEntry), i = 1 ∧ s.cam[i]? = some e ∧ e.valid = true ∧
      e.key = F.extractLsb' 16 16 ∧
      ∀ (j : Nat) (d : CamEntry), j < i → s.cam[j]? = some d → d.valid = true → d.key ≠ F.extractLsb' 16 16 := by
  refine ⟨{ State.reset with cam := [⟨false, 0x0102, 1, 1⟩, ⟨true, 0x0102, 2, 2⟩] }, 0x01020000, 1,
    ⟨true, 0x0102, 2, 2⟩, rfl, rfl, rfl, by decide, ?_⟩
  intro j d hj hd hv
  obtain rfl : j = 0 := by omega
  obtain rfl : ⟨false, 0x0102, 1, 1⟩ = d := Option.some.inj hd
  exact absurd hv (by decide)

theorem witness_KeyedEventMissIsSilent :
    ∃ (s : State) (F : Frame), ∀ e ∈ s.cam, e.valid = true → e.key ≠ F.extractLsb' 16 16 :=
  ⟨{ State.reset with cam := [⟨false, 0, 0, 0⟩, ⟨true, 0x0102, 1, 1⟩] }, 0, by decide⟩

theorem witness_ShadowedRuleNeverWins :
    ∃ (cam : List CamEntry) (i j : Nat) (d e : CamEntry), i < j ∧ cam[i]? = some d ∧ cam[j]? = some e ∧
      d.valid = true ∧ e.valid = true ∧ d.key = e.key :=
  ⟨[⟨true, 0x0102, 1, 1⟩, ⟨true, 0x0102, 2, 2⟩], 0, 1, ⟨true, 0x0102, 1, 1⟩, ⟨true, 0x0102, 2, 2⟩, by decide⟩

theorem witness_DispatchIgnoresTime :
    ∃ F G : Frame, F ≠ G ∧ F.extractLsb' 16 16 = G.extractLsb' 16 16 := ⟨0x00100000, 0x0010FBF0, by decide⟩

theorem witness_FrameRunsItsOperations :
    (∃ s : State, s.layout = .bitfield ∧ s.run = .running ∧ s.cnt = 3 ∧ s.unp = ⟨0, 0, 0, 0, 0, 0⟩) ∧
    (∃ s : State, s.layout = .codeBytes ∧ s.run = .running ∧ s.cnt = 3 ∧ s.unp = ⟨0, 0, 0, 0, 0, 0⟩) :=
  ⟨⟨inFrame .bitfield 0 0x11 8 [], by decide⟩, ⟨inFrame .codeBytes 1 2 0 [⟨true, 0x0102, 1, 1⟩], by decide⟩⟩

theorem witness_StartEntersRunning :
    (∃ s : State, s.run = .starting) ∧ (∃ s : State, s.run ≠ .starting) :=
  ⟨⟨State.reset, by decide⟩, ⟨stopped, by decide⟩⟩

theorem witness_StopHaltsOrDefers :
    (∃ s : State, s.run = .starting) ∧ (∃ s : State, s.run = .running) ∧ (∃ s : State, s.run = .stopped) :=
  ⟨⟨State.reset, by decide⟩, ⟨fresh, by decide⟩, ⟨stopped, by decide⟩⟩

theorem witness_ConfigWritesStore :
    (∃ s : State, s.run = .starting) ∧ (∃ s : State, s.run = .running ∧ s.run ≠ .starting) :=
  ⟨⟨State.reset, by decide⟩, ⟨fresh, by decide⟩⟩

theorem witness_CamWritesStore :
    (∃ (s : State) (i : CamIndex) (e : CamEntry), i = 0 ∧ s.cam[i.toNat]? = some e ∧ s.run = .starting) ∧
    (∃ (s : State) (i : CamIndex) (e : CamEntry), i = 15 ∧ s.cam[i.toNat]? = some e ∧ s.run = .starting) ∧
    (∃ (s : State) (i : CamIndex) (e : CamEntry), i = 15 ∧ s.cam[i.toNat]? = some e ∧ s.run ≠ .starting) :=
  ⟨⟨State.reset, 0, .cleared, by decide⟩, ⟨State.reset, 15, .cleared, by decide⟩, ⟨fresh, 15, .cleared, by decide⟩⟩

theorem witness_CamBeyondRules :
    (∃ (s : State) (i : CamIndex), i = 16 ∧ s.nRules ≤ i.toNat) ∧
    (∃ (s : State) (i : CamIndex), i = 63 ∧ s.nRules ≤ i.toNat) :=
  ⟨⟨State.reset, 16, by decide⟩, ⟨State.ofRules 63, 63, by decide⟩⟩

theorem witness_ConstantReads :
    (∃ s : State, s.nRules = 1 ∧ s.nRules ≤ 64) ∧ (∃ s : State, s.nRules = 64 ∧ s.nRules ≤ 64) :=
  ⟨⟨State.ofRules 1, by decide⟩, ⟨State.ofRules 64, by decide⟩⟩

theorem witness_CamReads :
    (∃ (s : State) (i : CamIndex) (e : CamEntry), i = 0 ∧ s.cam[i.toNat]? = some e) ∧
    (∃ (s : State) (i : CamIndex) (e : CamEntry), i = 63 ∧ s.cam[i.toNat]? = some e) :=
  ⟨⟨State.reset, 0, .cleared, by decide⟩, ⟨State.ofRules 64, 63, .cleared, by decide⟩⟩

theorem witness_ReadsSeeStartOfCycle :
    (∃ s : State, s.nextStimulus.sw.getLsbD 11 = false ∧ s.nextStimulus.hw.getLsbD 40 = true) ∧
    (∃ s : State, s.nextStimulus.sw.getLsbD 11 = false ∧ s.nextStimulus.hw.getLsbD 40 = false) :=
  ⟨⟨about fresh ⟨0x7AB, 0x30300000009⟩, by decide⟩, ⟨about fresh ⟨0x1AB, 0⟩, by decide⟩⟩

theorem witness_StepRunsDecodedOperation :
    ∃ (s : State) (i : Instr) (x : Stimulus) (rest : List Stimulus), i.kind = .cycle ∧
      i.wellFormed s.nRules = true ∧ encode i = .cycle x ∧ s.stim = x :: rest :=
  ⟨about State.reset ⟨0, 0x24280000102⟩, .wrCamkey 1 0x80000102, ⟨0, 0x24280000102⟩, [], by decide⟩

/-- A step answers a next state whatever the cycle holds: the hypothesis `step s = .next t` of the statements about steps. -/
theorem witness_step_next : ∃ s t : State, s.run = .running ∧ step s = .next t ∧ t.run = .stopped :=
  ⟨about { running 3 0 0x11 8 1 1 with stopReq := true } ⟨0x71E, 0⟩, _, rfl, rfl, rfl⟩

theorem witness_StepKeepsInvariants : ∃ s t : State, s.Inv ∧ step s = .next t := ⟨fresh, _, fresh_inv, rfl⟩

theorem witness_ConfigFrozenAfterStart :
    ∃ s t : State, s.run ≠ .starting ∧ s.nextStimulus.sw.getLsbD 11 = false ∧ step s = .next t :=
  ⟨about fresh ⟨0, 0x20200000001⟩, _, by decide, by decide, rfl⟩

theorem witness_StoppedIsFinal :
    (∃ s : State, s.run = .stopped ∧ s.nextStimulus.sw.getLsbD 11 = false ∧ s.nextStimulus.hw.getLsbD 40 = true) ∧
    (∃ s : State, s.run = .stopped ∧ s.nextStimulus.sw.getLsbD 11 = true) :=
  ⟨⟨about stopped ⟨0x7AA, 0x30100000001⟩, by decide⟩, ⟨about stopped ⟨0x800, 0⟩, by decide⟩⟩

theorem witness_RunStateTransitions_reset :
    ∃ s t : State, step s = .next t ∧ s.nextStimulus.sw.getLsbD 11 = true :=
  ⟨about stopped ⟨0x800, 0⟩, _, rfl, by decide⟩

theorem witness_RunStateTransitions_start :
    ∃ s t : State, step s = .next t ∧ s.run = .starting ∧ s.nextStimulus.sw.getLsbD 11 = false ∧ t.run = .running :=
  ⟨about State.reset ⟨0, 0x20000000001⟩, _, rfl, by decide⟩

theorem witness_EventsHaveTheirCause :
    (∃ s t : State, step s = .next t ∧ .fatal 3 ∈ t.out ∧ .partialFrame 1 0xCD 0 0 ∈ t.out) ∧
    (∃ s t : State, step s = .next t ∧ .timeout ∈ t.out ∧ .raw 0x0011081E ∈ t.out) :=
  ⟨⟨about fresh ⟨0x3CD, 0⟩, _, rfl, by decide⟩, ⟨about (running 3 0 0x11 8 1 1) ⟨0x51E, 0⟩, _, rfl, by decide⟩⟩

theorem witness_EventPortsCarryDecodedEvent :
    (∃ s t : State, step s = .next t ∧ .decoded (.zone 0 0 1 1 1) ∈ t.out) ∧
    (∃ s t : State, step s = .next t ∧ t.out = []) :=
  ⟨⟨about (running 3 0 0x11 8 1 1) ⟨0x11E, 0⟩, _, rfl, by decide⟩, ⟨fresh, _, rfl, by decide⟩⟩

theorem witness_ShortFrameGivesOnePartial :
    ∃ (s : State) (bs : List Byte) (rest : List Stimulus), s.Inv ∧ s.run = .running ∧ s.cnt = 0 ∧ s.stopReq = false ∧
      1 ≤ bs.length ∧ bs.length = 3 ∧ bs.length ≤ 3 ∧
      s.stim = bs.map Script.byte ++ Script.ticks s.tmoReload.toNat ++ rest :=
  ⟨{ fresh with stim := [Script.byte 1, Script.byte 2, Script.byte 3, Script.tick] }, [1, 2, 3], [],
    { fresh_inv with }, by decide⟩

theorem witness_FrameInsideItsWindow :
    ∃ (s : State) (b0 b1 b2 b3 : Byte) (n1 n2 n3 : Nat) (rest : List Stimulus), s.run = .running ∧ s.cnt = 0 ∧
      s.stopReq = false ∧ n1 + n2 + n3 + 1 = s.tmoReload.toNat ∧ n1 + n2 + n3 < s.tmoReload.toNat ∧
      s.stim = Script.byte b0 :: (Script.ticks n1 ++ Script.byte b1 :: (Script.ticks n2 ++ Script.byte b2 ::
        (Script.ticks n3 ++ Script.byte b3 :: rest))) :=
  ⟨{ running 0 0 0 0 2 1 with
      stim := [Script.byte 0, Script.byte 0x11, Script.tick, Script.byte 8, Script.byte 0x1E, Script.nop] },
    0, 0x11, 8, 0x1E, 0, 1, 0, [Script.nop], by decide⟩

theorem witness_IdleStreamTimesOutForever :
    ∃ (s : State) (m : Nat) (rest : List Stimulus), s.run = .running ∧ s.cnt = 0 ∧ s.stopReq = false ∧
      s.buf0 = 0 ∧ s.buf1 = 0 ∧ s.buf2 = 0 ∧ s.tmoCnt = s.tmoReload ∧ 1 ≤ s.tmoReload.toNat ∧
      s.stim = Script.ticks (m * s.tmoReload.toNat) ++ rest ∧ m = 2 :=
  ⟨{ fresh with stim := [Script.tick, Script.tick] }, 2, [], by decide⟩

theorem witness_RequestedStopArrives :
    ∃ s : State, s.Inv ∧ s.run = .running ∧ s.stopReq = true ∧ s.cnt ≠ 0 ∧ s.tmoCnt.toNat ≤ s.stim.length ∧
      ∀ x ∈ s.stim.take s.tmoCnt.toNat, x.sw.getLsbD 11 = false ∧ x.sw.getLsbD 10 = true :=
  ⟨{ stopping with stim := [⟨0x4FF, 0⟩, ⟨0x500, 0x20000000001⟩, ⟨0x600, 0⟩] }, { stopping_inv with }, by decide⟩

theorem witness_DecodeEncodeAgree :
    (Instr.wrCamdata 63 0xFFFFFFFF).wellFormed 64 = true ∧ (Instr.wrCamdata 63 0xFFFFFFFF).kind = .cycle ∧
    (Instr.zopen 0x0480BBB0).wellFormed 16 = true ∧ (Instr.zopen 0x0480BBB0).kind = .frameClass ∧
    (Instr.unpMinutes 0xFFFFFFFF).wellFormed 16 = true ∧ (Instr.unpMinutes 0xFFFFFFFF).kind = .slice := by decide

theorem witness_DecodedOperationsAreWellFormed :
    ∃ (n : Nat) (e : Encoding) (i : Instr), i ∈ decode n e ∧ i = .wrIgn 0x60 0x80000102 :=
  ⟨16, .cycle ⟨0x51E, 0x26080000102⟩, .wrIgn 0x60 0x80000102, by decide⟩

end Sys2Proof.Tests
end

/-! The step is total (00_scope.md R12): every operation has a meaning that answers a next state, so every list of
operations does, and so does the cycle, whatever its decoder reads from the stimulus. -/

namespace Sys2Proof.Machine

/-- The case split is over the operations; each case is that operation's arm equation in Laws/Exec. -/
theorem exec_answers_next (i : Instr) (s : State) : ∃ t : State, exec i s = .next t := by
  cases i <;> simp

theorem runOps_answers_next (is : List Instr) (s : State) : ∃ t : State, runOps is s = .next t := by
  induction is generalizing s with
  | nil => exact ⟨s, runOps_nil s⟩
  | cons i is ih =>
    obtain ⟨t, hexec⟩ := exec_answers_next i s
    rw [runOps_cons_next hexec]
    exact ih t

/-- Settles O37: a step runs the operations its decoder reads, and any list of operations answers a next state. -/
theorem everyCycleCompletes : Obligations.EveryCycleCompletes := by
  intro s
  rw [step_eq_runOps]
  exact runOps_answers_next s.fetchOps s.beginCycle

end Sys2Proof.Machine

/-! The step inverted: it is the phases of 43_control_host.md R200 on the ports of its stimulus, and what a register
write can do. The statements about steps rest on these two. -/

namespace Sys2Proof.Machine

/-! ## The machine's step on the ports -/

theorem phaseRead_nRules (a : Option Addr) (s : State) : (phaseRead a s).nRules = s.nRules := by
  cases a <;> rfl

/-- The decoded read is the read phase. -/
theorem runOps_read (we re : Bool) (a : Addr) (v : Word32) (is : List Instr) (s : State) :
    runOps ((decodeRead s.nRules (hostWord we re a v)).toList ++ is) s =
      runOps is (phaseRead (if re then some a else none) s) := by
  cases re with
  | false => simp [decodeRead_none, phaseRead]
  | true =>
    obtain ⟨i, hdec⟩ : ∃ i, decodeRead s.nRules (hostWord we true a v) = some i := ⟨_, decodeRead_hostWord ..⟩
    simp [hdec, runOps_cons_next (exec_read s _ rfl we a v i hdec), phaseRead]

/-- The decoded write is the host phase. -/
theorem runOps_write (we re : Bool) (a : Addr) (v : Word32) (s : State) :
    runOps (decodeWrite s.nRules (hostWord we re a v)).toList s =
      .next (phaseHost (if we then some (a, v) else none) s) := by
  cases we with
  | false => simp [decodeWrite_none, phaseHost]
  | true =>
    obtain ⟨i, hdec⟩ : ∃ i, decodeWrite s.nRules (hostWord true re a v) = some i := ⟨_, decodeWrite_hostWord ..⟩
    simp [hdec, runOps_singleton, exec_write s re a v i hdec, phaseHost]

/-- The decoded cycle without reset is the phases in their order, on packed ports. -/
theorem runOps_decodeCycle_ports (t c e we re : Bool) (b : Byte) (a : Addr) (v : Word32) (s : State) :
    runOps (decodeCycle s.nRules ⟨streamWord false t c e b, hostWord we re a v⟩) s =
      .next (phaseHost (if we then some (a, v) else none) (phaseTick t (phaseClose c
        (phaseByte (if e then some b else none) (phaseRead (if re then some a else none) s))))) := by
  rw [decodeCycle_ports, runOps_orNop, List.append_assoc, runOps_read, runOps_stream, ← runOps_write we re a v,
    streamPhases_nRules, phaseRead_nRules]

theorem decodeCycle_of_reset (n : Nat) (x : Stimulus) (hrst : x.sw.getLsbD 11 = true) :
    decodeCycle n x = [.reset] := by
  have hreset : isReset x.sw = true := by rw [← streamWord_eta x.sw, isReset_streamWord, hrst]
  simp [decodeCycle, hreset]

theorem cycleOf_of_reset {i : CycleInput} (hrst : i.rst = true) (s : State) : cycleOf i s = s.resetAll := by
  simp [cycleOf, hrst]

/-- The state the host phase meets: the read has been answered and the stream phases have run. -/
def beforeHost (i : CycleInput) (s : State) : State :=
  phaseTick i.tick (phaseClose i.closed (phaseByte i.byte (phaseRead i.hostRd s)))

theorem cycleOf_of_no_reset {i : CycleInput} (hrst : i.rst = false) (s : State) :
    cycleOf i s = phaseHost i.hostWr (beforeHost i s) := by
  simp [cycleOf, hrst, beforeHost]

/-- Any stimulus is its packed ports, so the decoded cycle is the phases on the ports (43_control_host.md R200). -/
theorem runOps_decodeCycle (x : Stimulus) (s : State) :
    runOps (decodeCycle s.nRules x) s = .next (cycleOf (cycleInputOf x) s) := by
  cases hrst : x.sw.getLsbD 11 with
  | true => rw [decodeCycle_of_reset _ _ hrst, runOps_singleton, exec_reset, cycleOf_of_reset hrst]
  | false =>
    have hrun := runOps_decodeCycle_ports (x.sw.getLsbD 10) (x.sw.getLsbD 9) (x.sw.getLsbD 8) (x.hw.getLsbD 41)
      (x.hw.getLsbD 40) (streamData x.sw) (hostAddr x.hw) (hostData x.hw) s
    rw [hostWord_eta, ← hrst, streamWord_eta] at hrun
    rw [cycleOf_of_no_reset hrst]
    exact hrun

/-- The inversion of a step: the next state is the cycle's, on the ports of its stimulus. -/
theorem eq_cycleOf_of_step {s t : State} (h : step s = .next t) :
    t = cycleOf (cycleInputOf s.nextStimulus) s.beginCycle := by
  have hstep : step s = .next (cycleOf (cycleInputOf s.nextStimulus) s.beginCycle) :=
    runOps_decodeCycle s.nextStimulus s.beginCycle
  rw [hstep] at h
  cases h
  rfl

/-- What holds before a cycle and is kept by the read and by every stream operation the cycle holds, holds when the
host phase comes. -/
theorem beforeHost_keeps {P : State → Prop} {i : CycleInput} {s : State}
    (hread : ∀ v t, P t → P (t.hostReturn v)) (hbyte : ∀ b t, P t → P (t.acceptByte b))
    (hclose : i.closed = true → ∀ t, P t → P t.sourceClosed) (htick : ∀ t, P t → P t.timebaseTick) (hs : P s) :
    P (beforeHost i s) := by
  have h₁ : P (phaseRead i.hostRd s) := by
    cases i.hostRd with
    | none => exact hs
    | some a => exact hread _ _ hs
  have h₂ : P (phaseByte i.byte (phaseRead i.hostRd s)) := by
    cases i.byte with
    | none => exact h₁
    | some b => exact hbyte _ _ h₁
  have h₃ : P (phaseClose i.closed (phaseByte i.byte (phaseRead i.hostRd s))) := by
    cases hc : i.closed with
    | false => exact h₂
    | true => exact hclose hc _ h₂
  unfold beforeHost
  cases i.tick with
  | false => exact h₃
  | true => exact htick _ h₃

/-- What every register write keeps, the host phase keeps. -/
theorem phaseHost_keeps {P : State → Prop} {s : State} (w : Option (Addr × Word32))
    (hwrite : ∀ a v, P (s.regWrite a v)) (hs : P s) : P (phaseHost w s) := by
  cases w with
  | none => exact hs
  | some av => exact hwrite av.1 av.2

/-! ## What a register write can do -/

/-- The effects that a configuration write has on the state while `run = STARTING`. -/
inductive ConfigEffect : (State → State) → Prop where
  | cfg (v : Word32) : ConfigEffect (State.setCfg v)
  | tmo (v : Word32) : ConfigEffect (State.setTmo v)
  | cam (i : CamIndex) (f : CamEntry → CamEntry) : ConfigEffect (State.updateCam i f)

theorem ConfigEffect.run_eq {f : State → State} (hf : ConfigEffect f) (s : State) : (f s).run = s.run := by
  cases hf <;> rfl

/-- A register write does one of four things: nothing, STOP, START, or a configuration effect behind the write lock. -/
theorem State.regWrite_cases (a : Addr) (v : Word32) (s : State) :
    ((a = 0 → v.getLsbD 1 = false ∧ v.getLsbD 0 = false) ∧ s.regWrite a v = s) ∨
    (a = 0 ∧ v.getLsbD 1 = true ∧ s.regWrite a v = s.stopRun) ∨
    (a = 0 ∧ v.getLsbD 1 = false ∧ v.getLsbD 0 = true ∧ s.regWrite a v = s.startRun) ∨
    (a ≠ 0 ∧ ∃ f, ConfigEffect f ∧ s.regWrite a v = s.whileStarting f) := by
  unfold State.regWrite
  by_cases ha : a = 0
  · rw [if_pos ha]
    cases hstop : v.getLsbD 1 with
    | true => exact .inr (.inl ⟨ha, rfl, rfl⟩)
    | false =>
      cases hstart : v.getLsbD 0 with
      | true => exact .inr (.inr (.inl ⟨ha, rfl, rfl, rfl⟩))
      | false => exact .inl ⟨fun _ => ⟨rfl, rfl⟩, rfl⟩
  rw [if_neg ha]
  by_cases hcfg : a = 2
  · rw [if_pos hcfg]
    exact .inr (.inr (.inr ⟨ha, _, .cfg v, rfl⟩))
  rw [if_neg hcfg]
  by_cases htmo : a = 3
  · rw [if_pos htmo]
    exact .inr (.inr (.inr ⟨ha, _, .tmo v, rfl⟩))
  rw [if_neg htmo]
  by_cases hcam : camAddr s.nRules a = true
  · rw [if_pos hcam]
    split
    · exact .inr (.inr (.inr ⟨ha, _, .cam .., rfl⟩))
    · exact .inr (.inr (.inr ⟨ha, _, .cam .., rfl⟩))
  · rw [if_neg hcam]
    exact .inl ⟨fun hzero => absurd hzero ha, rfl⟩

end Sys2Proof.Machine

/-! The reachable-state invariants (10_state.md R43): each operation of a cycle keeps them, so every step does. -/

namespace Sys2Proof.Machine

/-! ## The state after reset -/

theorem State.ofRules_inv {n : Nat} (hmin : Config.nRulesMin ≤ n) (hmax : n ≤ Config.nRulesMax) :
    (State.ofRules n).Inv where
  quiet := fun _ => ⟨rfl, rfl, rfl, rfl, rfl, rfl⟩
  window := fun hrun => nomatch hrun
  reload := Nat.le_refl 1
  buffer := ⟨fun _ => rfl, fun _ => rfl, fun _ => rfl⟩
  rules := by simpa [State.nRules, State.ofRules] using And.intro hmin hmax
  seen := List.nil_suffix

/-- Settles O40: the invariants hold after reset for every allowed number of entries. -/
theorem resetStateHasInvariants : Obligations.ResetStateHasInvariants :=
  State.ofRules_inv (by decide) (by decide)

/-! ## The operations of a cycle -/

section

variable {s : State} (h : s.Inv)
include h

theorem State.Inv.beginCycle : s.beginCycle.Inv := { h with seen := List.nil_suffix }

theorem State.Inv.hostReturn (v : Word32) : (s.hostReturn v).Inv := { h with }

theorem State.Inv.drive (p : EventPorts) : (s.drive p).Inv := { h with }

theorem State.Inv.emitAll (es : List OutEvent) : (s.emitAll es).Inv :=
  { h with
    seen := by
      obtain ⟨earlier, htrace⟩ := h.seen
      exact ⟨earlier, by simp [State.emitAll, ← htrace]⟩ }

theorem State.Inv.resetAll : s.resetAll.Inv :=
  { State.ofRules_inv h.rules.1 h.rules.2 with seen := List.nil_suffix }

/-- The epilogue of a read in flight: the run stops with nothing held, or goes on with a full window. -/
theorem State.Inv.epilogue (hrun : s.run = .running) : s.epilogue.Inv := by
  rw [State.epilogue_eq]
  exact {
    quiet := by cases s.stopReq <;> simp [hrun]
    window := by cases s.stopReq <;> simp [h.reload]
    reload := h.reload
    buffer := by simp
    rules := h.rules
    seen := h.seen }

theorem State.Inv.clearBuf_halt : s.clearBuf.halt.Inv where
  quiet := by simp
  window := by simp
  reload := h.reload
  buffer := by simp
  rules := h.rules
  seen := h.seen

/-- A stored byte goes to `buf[cnt]`, so the buffer stays 0 from the new `cnt` on; the first one opens a full window. -/
theorem State.Inv.storeByte (b : Byte) (hrun : s.run = .running) (hcnt : s.cnt.toNat ≤ 2) :
    State.Inv { (if s.cnt = 0 then s.reload else s).setBuf s.cnt b with cnt := s.cnt + 1 } := by
  obtain ⟨hopen, hfull⟩ := h.window hrun
  obtain ⟨_, hbuf1, hbuf2⟩ := h.buffer
  have hnext : (s.cnt + 1).toNat = s.cnt.toNat + 1 := by rw [BitVec.toNat_add]; simp; omega
  rw [State.storeByte_eq b s hcnt]
  exact {
    quiet := fun hne => absurd hrun hne
    window := fun _ => by
      dsimp only
      split
      · exact ⟨h.reload, Nat.le_refl _⟩
      · exact ⟨hopen, hfull⟩
    reload := h.reload
    buffer := by
      simp only [hnext]
      refine ⟨fun hzero => ?_, fun hle => ?_, fun hle => ?_⟩
      · have : (s.cnt + 1).toNat = 0 := congrArg BitVec.toNat hzero
        omega
      · rw [if_neg (fun h1 : s.cnt = 1 => by simp [h1] at hle)]
        exact hbuf1 (by omega)
      · rw [if_neg (fun h2 : s.cnt = 2 => by simp [h2] at hle)]
        exact hbuf2 hcnt
    rules := h.rules
    seen := h.seen }

theorem State.Inv.acceptByte (b : Byte) : (s.acceptByte b).Inv := by
  rcases s.acceptByte_cases b with ⟨_, heq⟩ | ⟨hrun, hcnt, heq⟩ | ⟨hrun, _, heq⟩ <;> rw [heq]
  · exact h
  · exact h.storeByte b hrun hcnt
  · rw [State.processFrame_eq]
    exact ((h.drive _).emitAll _).epilogue hrun

theorem State.Inv.sourceClosed : s.sourceClosed.Inv := by
  rcases s.sourceClosed_cases with ⟨_, heq⟩ | ⟨_, heq⟩ <;> rw [heq]
  · exact h
  · exact (h.emitAll _).clearBuf_halt

theorem State.Inv.timebaseTick : s.timebaseTick.Inv := by
  rcases s.timebaseTick_cases with ⟨_, heq⟩ | ⟨hrun, hmore, heq⟩ | ⟨hrun, _, heq⟩ <;> rw [heq]
  · exact h
  · obtain ⟨_, hfull⟩ := h.window hrun
    have hless : (s.tmoCnt - 1).toNat = s.tmoCnt.toNat - 1 := by bv_omega
    exact { h with
      quiet := fun hne => absurd hrun hne
      window := fun _ => by simp only [hless]; omega }
  · exact (h.emitAll _).epilogue hrun

theorem State.Inv.startRun : s.startRun.Inv := by
  rcases s.startRun_cases with ⟨_, heq⟩ | ⟨_, heq⟩ <;> rw [heq]
  · exact { h with
      quiet := fun hne => absurd rfl hne
      window := fun _ => ⟨h.reload, Nat.le_refl _⟩ }
  · exact h

theorem State.Inv.stopRun : s.stopRun.Inv := by
  rcases s.stopRun_cases with ⟨hrun, heq⟩ | ⟨hrun, heq⟩ | ⟨_, heq⟩ <;> rw [heq]
  · exact { h with
      quiet := fun _ => h.quiet (by simp [hrun])
      window := fun hrunning => nomatch hrunning }
  · exact { h with quiet := fun hne => absurd hrun hne }
  · exact h

/-- In STARTING no window is open, so the reload value may change under it. -/
theorem State.Inv.configEffect {f : State → State} (hf : ConfigEffect f) (hrun : s.run = .starting) : (f s).Inv := by
  cases hf with
  | cfg v => exact { h with }
  | tmo v => exact { h with
      window := fun hrunning => by simp [hrun] at hrunning
      reload := legalReload_pos _ }
  | cam i f => exact { h with rules := by simpa [State.nRules] using h.rules }

theorem State.Inv.regWrite (a : Addr) (v : Word32) : (s.regWrite a v).Inv := by
  rcases s.regWrite_cases a v with ⟨_, heq⟩ | ⟨_, _, heq⟩ | ⟨_, _, _, heq⟩ | ⟨_, f, hf, heq⟩ <;> rw [heq]
  · exact h
  · exact h.stopRun
  · exact h.startRun
  · rcases s.whileStarting_cases f with ⟨hrun, hw⟩ | ⟨_, hw⟩ <;> rw [hw]
    · exact h.configEffect hf hrun
    · exact h

theorem State.Inv.cycleOf (i : CycleInput) : (Machine.cycleOf i s).Inv := by
  cases hrst : i.rst with
  | true => rw [cycleOf_of_reset hrst]; exact h.resetAll
  | false =>
    rw [cycleOf_of_no_reset hrst]
    have hbefore : (beforeHost i s).Inv :=
      beforeHost_keeps (fun v _ ht => ht.hostReturn v) (fun b _ ht => ht.acceptByte b) (fun _ _ ht => ht.sourceClosed)
        (fun _ ht => ht.timebaseTick) h
    exact phaseHost_keeps _ hbefore.regWrite hbefore

end

/-- Settles O41: the step is the cycle on the ports, and each of its operations keeps the invariants. -/
theorem stepKeepsInvariants : Obligations.StepKeepsInvariants := by
  intro s t hinv hstep
  rw [eq_cycleOf_of_step hstep]
  exact hinv.beginCycle.cycleOf _

end Sys2Proof.Machine

/-! The run state (10_state.md R25, 43_control_host.md R221) and the configuration (R39): what the stream phases and the
host phase of a cycle do to each. -/

namespace Sys2Proof.Machine

/-! ## The run state through the stream phases -/

/-- From `s` to `t` the run state and the stop request stay, or a RUNNING machine stops, and then `cause` holds. -/
def StaysOrStops (cause : Prop) (s t : State) : Prop :=
  (t.run = s.run ∧ t.stopReq = s.stopReq) ∨ (s.run = .running ∧ t.run = .stopped ∧ cause)

theorem StaysOrStops.refl (cause : Prop) (s : State) : StaysOrStops cause s s := .inl ⟨rfl, rfl⟩

/-- A machine that has stopped stays stopped, so the second move's cause matters only where the first changed nothing. -/
theorem StaysOrStops.trans {c d : Prop} {s t u : State} (hst : StaysOrStops c s t) (htu : StaysOrStops d t u)
    (hcause : t.stopReq = s.stopReq → d → c) : StaysOrStops c s u := by
  rcases hst with ⟨hrun, hreq⟩ | ⟨hrun, hstop, hc⟩
  · rcases htu with ⟨hrun', hreq'⟩ | ⟨hrun', hstop', hd⟩
    · exact .inl ⟨hrun'.trans hrun, hreq'.trans hreq⟩
    · exact .inr ⟨hrun ▸ hrun', hstop', hcause hreq hd⟩
  · rcases htu with ⟨hrun', _⟩ | ⟨hrun', _, _⟩
    · exact .inr ⟨hrun, hrun'.trans hstop, hc⟩
    · rw [hstop] at hrun'; cases hrun'

/-- The epilogue takes the stop that waits (40_framesync.md R127), and only that. -/
theorem epilogue_staysOrStops {s : State} (hrun : s.run = .running) :
    StaysOrStops (s.stopReq = true) s s.epilogue := by
  rw [State.epilogue_eq]
  cases hreq : s.stopReq with
  | true => exact .inr ⟨hrun, rfl, rfl⟩
  | false => exact .inl ⟨rfl, hreq.symm⟩

theorem acceptByte_staysOrStops (b : Byte) (s : State) : StaysOrStops (s.stopReq = true) s (s.acceptByte b) := by
  rcases s.acceptByte_cases b with ⟨_, heq⟩ | ⟨_, hcnt, heq⟩ | ⟨hrun, _, heq⟩ <;> rw [heq]
  · exact .refl ..
  · rw [State.storeByte_eq b s hcnt]
    exact .inl ⟨rfl, rfl⟩
  · rw [State.processFrame_eq]
    exact epilogue_staysOrStops hrun

theorem timebaseTick_staysOrStops (s : State) : StaysOrStops (s.stopReq = true) s s.timebaseTick := by
  rcases s.timebaseTick_cases with ⟨_, heq⟩ | ⟨_, _, heq⟩ | ⟨hrun, _, heq⟩ <;> rw [heq]
  · exact .refl ..
  · exact .inl ⟨rfl, rfl⟩
  · exact epilogue_staysOrStops hrun

theorem sourceClosed_staysOrStops (s : State) : StaysOrStops True s s.sourceClosed := by
  rcases s.sourceClosed_cases with ⟨_, heq⟩ | ⟨hrun, heq⟩ <;> rw [heq]
  · exact .refl ..
  · exact .inr ⟨hrun, rfl, trivial⟩

/-- Before the host phase a machine stops only on closure or with a stop requested. -/
theorem beforeHost_staysOrStops (i : CycleInput) (s : State) :
    StaysOrStops (i.closed = true ∨ s.stopReq = true) s (beforeHost i s) :=
  beforeHost_keeps (P := StaysOrStops _ s)
    (fun _ _ ht => ht)
    (fun b t ht => ht.trans (acceptByte_staysOrStops b t) fun hreq hd => .inr (hreq ▸ hd))
    (fun hclosed t ht => ht.trans (sourceClosed_staysOrStops t) fun _ _ => .inl hclosed)
    (fun t ht => ht.trans (timebaseTick_staysOrStops t) fun hreq hd => .inr (hreq ▸ hd))
    (.refl ..)

theorem StaysOrStops.run_ne_starting {c : Prop} {s t : State} (h : StaysOrStops c s t) (hs : s.run ≠ .starting) :
    t.run ≠ .starting := by
  rcases h with ⟨hrun, _⟩ | ⟨_, hstop, _⟩
  · rwa [hrun]
  · simp [hstop]

/-! ## The run state through the host phase -/

/-- A write moves the run state out of STARTING only: in RUNNING a STOP is deferred, in STOPPED nothing acts. -/
theorem regWrite_run_of_ne_starting {s : State} (hs : s.run ≠ .starting) (a : Addr) (v : Word32) :
    (s.regWrite a v).run = s.run := by
  rcases s.regWrite_cases a v with ⟨_, heq⟩ | ⟨_, _, heq⟩ | ⟨_, _, _, heq⟩ | ⟨_, f, _, heq⟩ <;> rw [heq]
  · rcases s.stopRun_cases with ⟨hrun, _⟩ | ⟨_, hstop⟩ | ⟨_, hstop⟩
    · exact absurd hrun hs
    · rw [hstop]
    · rw [hstop]
  · rcases s.startRun_cases with ⟨hrun, _⟩ | ⟨_, hstart⟩
    · exact absurd hrun hs
    · rw [hstart]
  · rcases s.whileStarting_cases f with ⟨hrun, _⟩ | ⟨_, hlock⟩
    · exact absurd hrun hs
    · rw [hlock]

theorem phaseHost_run_of_ne_starting {s : State} (hs : s.run ≠ .starting) (w : Option (Addr × Word32)) :
    (phaseHost w s).run = s.run :=
  phaseHost_keeps (P := fun t => t.run = s.run) w (regWrite_run_of_ne_starting hs) rfl

/-- In STARTING a write goes to RUNNING exactly as START and to STOPPED exactly as STOP; every other write stays. -/
theorem regWrite_run_of_starting {s : State} (hs : s.run = .starting) (a : Addr) (v : Word32) :
    ((s.regWrite a v).run = .running ↔ a = 0 ∧ v.getLsbD 0 = true ∧ v.getLsbD 1 = false) ∧
    ((s.regWrite a v).run = .stopped ↔ a = 0 ∧ v.getLsbD 1 = true) := by
  rcases s.regWrite_cases a v with ⟨hctrl, heq⟩ | ⟨ha, hstop, heq⟩ | ⟨ha, hstop, hstart, heq⟩ | ⟨ha, f, hf, heq⟩ <;>
    rw [heq]
  · grind
  · have hrun : s.stopRun.run = .stopped := by simp [State.stopRun, hs]
    grind
  · have hrun : s.startRun.run = .running := by simp [State.startRun, hs]
    grind
  · have hrun : (s.whileStarting f).run = .starting := by simp [State.whileStarting, hs, hf.run_eq]
    grind

theorem phaseHost_run_of_starting {s : State} (hs : s.run = .starting) (w : Option (Addr × Word32)) :
    ((phaseHost w s).run = .running ↔ ∃ v, w = some (0, v) ∧ v.getLsbD 0 = true ∧ v.getLsbD 1 = false) ∧
    ((phaseHost w s).run = .stopped ↔ ∃ v, w = some (0, v) ∧ v.getLsbD 1 = true) := by
  cases w with
  | none => simp [phaseHost, hs]
  | some av =>
    obtain ⟨a, v⟩ := av
    obtain ⟨hrunning, hstopped⟩ := regWrite_run_of_starting hs a v
    exact ⟨hrunning.trans (by grind), hstopped.trans (by grind)⟩

/-! ## The run state's transitions -/

theorem StaysOrStops.runMayGo {c : Prop} {s t : State} (h : StaysOrStops c s t) :
    Machine.runMayGo s.run t.run = true := by
  rcases h with ⟨hrun, _⟩ | ⟨hrun, hstop, _⟩
  · rw [hrun]; cases s.run <;> rfl
  · rw [hrun, hstop]; rfl

theorem runMayGo_starting (r : Run) : runMayGo .starting r = true := by cases r <;> rfl

/-- A cycle without reset takes a transition of the graph. -/
theorem runMayGo_cycleOf {i : CycleInput} (hrst : i.rst = false) (s : State) :
    runMayGo s.run (cycleOf i s).run = true := by
  rw [cycleOf_of_no_reset hrst]
  have hbefore := beforeHost_staysOrStops i s
  by_cases hs : s.run = .starting
  · rw [hs]; exact runMayGo_starting _
  · rw [phaseHost_run_of_ne_starting (hbefore.run_ne_starting hs)]
    exact hbefore.runMayGo

/-- A write of the control register, read off the ports of the stimulus. -/
theorem hostWr_eq_ctrl (x : Stimulus) (v : Word32) :
    (cycleInputOf x).hostWr = some (0, v) ↔
      (x.hw.getLsbD 41 = true ∧ x.hw.extractLsb' 32 8 = 0x00#8) ∧ v = x.hw.extractLsb' 0 32 := by
  change (if x.hw.getLsbD 41 = true then some (x.hw.extractLsb' 32 8, x.hw.extractLsb' 0 32) else none) = _ ↔ _
  split
  next hwe => simp only [hwe, true_and, Option.some.injEq, Prod.mk.injEq, BitVec.ofNat_eq_ofNat, eq_comm (a := v)]
  next hwe => simp only [hwe, false_and, reduceCtorEq]

theorem cycleOf_run_of_starting {x : Stimulus} (hrst : x.sw.getLsbD 11 = false) {s : State} (hs : s.run = .starting) :
    ((cycleOf (cycleInputOf x) s).run = .running ↔
      (x.hw.getLsbD 41 = true ∧ x.hw.extractLsb' 32 8 = 0x00#8) ∧ x.hw.getLsbD 0 = true ∧ x.hw.getLsbD 1 = false) ∧
    ((cycleOf (cycleInputOf x) s).run = .stopped ↔
      (x.hw.getLsbD 41 = true ∧ x.hw.extractLsb' 32 8 = 0x00#8) ∧ x.hw.getLsbD 1 = true) := by
  have hbefore : (beforeHost (cycleInputOf x) s).run = .starting := by
    rcases beforeHost_staysOrStops (cycleInputOf x) s with ⟨hrun, _⟩ | ⟨hrun, _⟩
    · exact hrun.trans hs
    · rw [hs] at hrun; cases hrun
  rw [cycleOf_of_no_reset hrst]
  have hhost := phaseHost_run_of_starting hbefore (cycleInputOf x).hostWr
  simp only [hostWr_eq_ctrl] at hhost
  simpa using hhost

/-- RUNNING ends only on closure or with a stop requested before: a STOP of the same cycle is deferred. -/
theorem cycleOf_stops_of_running {i : CycleInput} (hrst : i.rst = false) {s : State} (hs : s.run = .running)
    (hstop : (cycleOf i s).run = .stopped) : i.closed = true ∨ s.stopReq = true := by
  have hbefore := beforeHost_staysOrStops i s
  rw [cycleOf_of_no_reset hrst, phaseHost_run_of_ne_starting (hbefore.run_ne_starting (by simp [hs]))] at hstop
  rcases hbefore with ⟨hrun, _⟩ | ⟨_, _, hcause⟩
  · rw [hrun, hs] at hstop; cases hstop
  · exact hcause

/-- Settles O44: the stream phases stay or stop, and only in STARTING does the host phase move the run state. -/
theorem runStateTransitions : Obligations.RunStateTransitions := by
  intro s t hstep sw hw ctrl
  rw [eq_cycleOf_of_step hstep]
  refine ⟨fun hrst => ?_, fun hrst => ⟨?_, fun hs => ?_, fun hs hstop => ?_⟩⟩
  · rw [cycleOf_of_reset hrst]; rfl
  · exact runMayGo_cycleOf hrst s.beginCycle
  · exact cycleOf_run_of_starting hrst (s := s.beginCycle) hs
  · exact cycleOf_stops_of_running hrst (s := s.beginCycle) hs hstop

/-! ## The configuration -/

theorem acceptByte_config (b : Byte) (s : State) : (s.acceptByte b).config = s.config := by
  rcases s.acceptByte_cases b with ⟨_, heq⟩ | ⟨_, hcnt, heq⟩ | ⟨_, _, heq⟩ <;> rw [heq]
  · rw [State.storeByte_eq b s hcnt]; rfl
  · rw [State.processFrame_eq, State.epilogue_eq]; rfl

theorem sourceClosed_config (s : State) : s.sourceClosed.config = s.config := by
  rcases s.sourceClosed_cases with ⟨_, heq⟩ | ⟨_, heq⟩ <;> rw [heq]
  rfl

theorem timebaseTick_config (s : State) : s.timebaseTick.config = s.config := by
  rcases s.timebaseTick_cases with ⟨_, heq⟩ | ⟨_, _, heq⟩ | ⟨_, _, heq⟩ <;> rw [heq]
  · rfl
  · rw [State.epilogue_eq]; rfl

/-- No stream operation writes the configuration. -/
theorem beforeHost_config (i : CycleInput) (s : State) : (beforeHost i s).config = s.config :=
  beforeHost_keeps (P := fun t => t.config = s.config)
    (fun _ _ ht => ht)
    (fun b t ht => (acceptByte_config b t).trans ht)
    (fun _ t ht => (sourceClosed_config t).trans ht)
    (fun t ht => (timebaseTick_config t).trans ht)
    rfl

/-- The write lock: outside STARTING no write changes the configuration. -/
theorem regWrite_config_of_ne_starting {s : State} (hs : s.run ≠ .starting) (a : Addr) (v : Word32) :
    (s.regWrite a v).config = s.config := by
  rcases s.regWrite_cases a v with ⟨_, heq⟩ | ⟨_, _, heq⟩ | ⟨_, _, _, heq⟩ | ⟨_, f, _, heq⟩ <;> rw [heq]
  · rcases s.stopRun_cases with ⟨_, hstop⟩ | ⟨_, hstop⟩ | ⟨_, hstop⟩ <;> rw [hstop] <;> rfl
  · rcases s.startRun_cases with ⟨_, hstart⟩ | ⟨_, hstart⟩ <;> rw [hstart]
    rfl
  · rcases s.whileStarting_cases f with ⟨hrun, _⟩ | ⟨_, hlock⟩
    · exact absurd hrun hs
    · rw [hlock]

/-- Settles O42: the stream phases write no configuration and do not go back to STARTING, so the lock holds at the write. -/
theorem configFrozenAfterStart : Obligations.ConfigFrozenAfterStart := by
  intro s t hs hrst hstep
  rw [eq_cycleOf_of_step hstep, cycleOf_of_no_reset hrst]
  have hlocked := (beforeHost_staysOrStops (cycleInputOf s.nextStimulus) s.beginCycle).run_ne_starting hs
  exact phaseHost_keeps (P := fun t => t.config = s.config) _
    (fun a v => (regWrite_config_of_ne_starting hlocked a v).trans (beforeHost_config _ _))
    (beforeHost_config _ _)

end Sys2Proof.Machine

/-! The values after reset (10_state.md R46), and CAM terms beyond the last entry (R38, notes/assumptions/11.md). -/

namespace Sys2Proof.Machine

/-- Without an event in the cycle the event ports are all 0; the rest is the unpacker, the run state and the read data. -/
theorem State.ports_of_no_event {s : State} (hout : s.out = []) :
    s.ports = ⟨false, 0, false, 0, s.unp, false, 0, 0, 0, 0, false, false, 0, 0, false, 0, s.run.code, s.rdata⟩ := by
  simp [State.ports, hout, rawIn, decodedIn, intentIn, partialIn, fatalIn]

/-- Settles O2: each component by the definition of the reset state, the ports because it has seen no event. -/
theorem resetStateValues : Obligations.ResetStateValues :=
  ⟨rfl, rfl, rfl, rfl, rfl, rfl, rfl, rfl, rfl, rfl, State.ports_of_no_event rfl⟩

section

variable {s : State} {i : CamIndex} (hbeyond : s.nRules ≤ i.toNat)
include hbeyond

theorem State.updateCam_beyond (f : CamEntry → CamEntry) : s.updateCam i f = s := by
  have hcam : s.cam.modify i.toNat f = s.cam := List.modify_eq_self hbeyond
  simp [State.updateCam, hcam]

theorem State.whileStarting_updateCam_beyond (f : CamEntry → CamEntry) : s.whileStarting (State.updateCam i f) = s := by
  rcases s.whileStarting_cases (State.updateCam i f) with ⟨_, heq⟩ | ⟨_, heq⟩ <;> rw [heq]
  exact State.updateCam_beyond hbeyond f

theorem camkeyWord_beyond : camkeyWord s i = 0 := by
  have hnone : s.cam[i.toNat]? = none := List.getElem?_eq_none hbeyond
  simp [camkeyWord, hnone]

theorem camdataWord_beyond : camdataWord s i = 0 := by
  have hnone : s.cam[i.toNat]? = none := List.getElem?_eq_none hbeyond
  simp [camdataWord, hnone]

end

/-- Settles O30: the list of entries has none to modify at that index. -/
theorem camWritesBeyondRulesIgnored : Obligations.CamWritesBeyondRulesIgnored := by
  intro s i v hbeyond
  simp [State.whileStarting_updateCam_beyond hbeyond]

/-- Settles O35: the list of entries has none to read at that index. -/
theorem camReadsBeyondRulesAreZero : Obligations.CamReadsBeyondRulesAreZero := by
  intro s i hbeyond
  simp [camkeyWord_beyond hbeyond, camdataWord_beyond hbeyond, State.hostReturn]

end Sys2Proof.Machine

/-! The host read (20_memory.md R77): it is answered first, and no later phase of the cycle touches its answer. -/

namespace Sys2Proof.Machine

/-- What host reads have made visible: `h_rdata` of the cycle, and every value returned so far. -/
def State.readView (s : State) : Word32 × List Word32 := (s.rdata, s.reads)

theorem State.readView_eq_iff {s : State} {v : Word32} {vs : List Word32} :
    s.readView = (v, vs) ↔ s.rdata = v ∧ s.reads = vs := Prod.mk_inj

/-! ## Only the read touches it -/

theorem acceptByte_readView (b : Byte) (s : State) : (s.acceptByte b).readView = s.readView := by
  rcases s.acceptByte_cases b with ⟨_, heq⟩ | ⟨_, hcnt, heq⟩ | ⟨_, _, heq⟩ <;> rw [heq]
  · rw [State.storeByte_eq b s hcnt]; rfl
  · rw [State.processFrame_eq, State.epilogue_eq]; rfl

theorem sourceClosed_readView (s : State) : s.sourceClosed.readView = s.readView := by
  rcases s.sourceClosed_cases with ⟨_, heq⟩ | ⟨_, heq⟩ <;> rw [heq]
  rfl

theorem timebaseTick_readView (s : State) : s.timebaseTick.readView = s.readView := by
  rcases s.timebaseTick_cases with ⟨_, heq⟩ | ⟨_, _, heq⟩ | ⟨_, _, heq⟩ <;> rw [heq]
  · rfl
  · rw [State.epilogue_eq]; rfl

theorem phaseByte_readView (b : Option Byte) (s : State) : (phaseByte b s).readView = s.readView := by
  cases b with
  | none => rfl
  | some b => exact acceptByte_readView b s

theorem phaseClose_readView (closed : Bool) (s : State) : (phaseClose closed s).readView = s.readView := by
  cases closed with
  | false => rfl
  | true => exact sourceClosed_readView s

theorem phaseTick_readView (tick : Bool) (s : State) : (phaseTick tick s).readView = s.readView := by
  cases tick with
  | false => rfl
  | true => exact timebaseTick_readView s

theorem ConfigEffect.readView_eq {f : State → State} (hf : ConfigEffect f) (s : State) :
    (f s).readView = s.readView := by
  cases hf <;> rfl

theorem regWrite_readView (a : Addr) (v : Word32) (s : State) : (s.regWrite a v).readView = s.readView := by
  rcases s.regWrite_cases a v with ⟨_, heq⟩ | ⟨_, _, heq⟩ | ⟨_, _, _, heq⟩ | ⟨_, f, hf, heq⟩ <;> rw [heq]
  · rcases s.stopRun_cases with ⟨_, hstop⟩ | ⟨_, hstop⟩ | ⟨_, hstop⟩ <;> rw [hstop] <;> rfl
  · rcases s.startRun_cases with ⟨_, hstart⟩ | ⟨_, hstart⟩ <;> rw [hstart]
    rfl
  · rcases s.whileStarting_cases f with ⟨_, hw⟩ | ⟨_, hw⟩ <;> rw [hw]
    exact hf.readView_eq s

theorem phaseHost_readView (w : Option (Addr × Word32)) (s : State) : (phaseHost w s).readView = s.readView :=
  phaseHost_keeps (P := fun t => t.readView = s.readView) w (fun a v => regWrite_readView a v s) rfl

/-- What the host reads from a cycle without reset is settled by its read phase, the first. -/
theorem cycleOf_readView {i : CycleInput} (hrst : i.rst = false) (s : State) :
    (cycleOf i s).readView = (phaseRead i.hostRd s).readView := by
  rw [cycleOf_of_no_reset hrst, phaseHost_readView, beforeHost, phaseTick_readView, phaseClose_readView,
    phaseByte_readView]

/-! ## The read sees the start of the cycle -/

/-- Sampling the stimulus and clearing the ports of the cycle changes no register. -/
theorem regRead_beginCycle (s : State) (a : Addr) : regRead s.beginCycle a = regRead s a := rfl

theorem phaseRead_some_readView (a : Addr) (s : State) :
    (phaseRead (some a) s.beginCycle).readView = (regRead s a, s.reads ++ [regRead s a]) := by
  simp [phaseRead, State.readView, regRead_beginCycle]

theorem phaseRead_none_readView (s : State) : (phaseRead none s.beginCycle).readView = (0, s.reads) := rfl

theorem hostRd_of_re {x : Stimulus} (hre : x.hw.getLsbD 40 = true) :
    (cycleInputOf x).hostRd = some (x.hw.extractLsb' 32 8) := if_pos hre

theorem hostRd_of_no_re {x : Stimulus} (hre : x.hw.getLsbD 40 = false) : (cycleInputOf x).hostRd = none :=
  if_neg (ne_true_of_eq_false hre)

/-- Settles O36: the read phase comes first, on the registers as the cycle found them, and no later phase touches its
answer. -/
theorem readsSeeStartOfCycle : Obligations.ReadsSeeStartOfCycle := by
  intro s hrst
  obtain ⟨t, hstep⟩ := everyCycleCompletes s
  have hview : t.readView = (phaseRead (cycleInputOf s.nextStimulus).hostRd s.beginCycle).readView := by
    rw [eq_cycleOf_of_step hstep, cycleOf_readView hrst]
  refine ⟨t, hstep, fun hre => ?_, fun hre => ?_⟩
  · rw [hostRd_of_re hre, phaseRead_some_readView] at hview
    obtain ⟨hrdata, hreads⟩ := State.readView_eq_iff.mp hview
    exact ⟨hrdata, by rw [hreads, hrdata]⟩
  · rw [hostRd_of_no_re hre, phaseRead_none_readView] at hview
    exact State.readView_eq_iff.mp hview

end Sys2Proof.Machine

/-! Frame classes by their fields (30_encoding.md R96, R97): the masks of the table are tests of `typeBit`, `eventCode` and
the zone, and a class's own check of well-formedness picks the decoder's answer. -/

namespace Sys2Proof

/-- A row whose mask is one field tests that field. -/
theorem rowMatches_field {n k : Nat} (p : Nat) (hfit : p + k ≤ n) (w : BitVec n) (v : BitVec k) :
    rowMatches w ((BitVec.allOnes k).setWidth n <<< p) (v.setWidth n <<< p) = (w.extractLsb' p k == v) := by
  rw [rowMatches, Bool.eq_iff_iff, beq_iff_eq, beq_iff_eq]
  constructor
  · intro hrow
    apply BitVec.eq_of_getLsbD_eq
    intro i hi
    have hbit := congrArg (fun u : BitVec n => u.getLsbD (p + i)) hrow
    simpa [hi, show p + i < n by omega, show i < n by omega] using hbit
  · intro hfield
    apply BitVec.eq_of_getLsbD_eq
    intro j hj
    by_cases hlow : j < p
    · simp [hlow]
    · have hbit := congrArg (fun u : BitVec k => u.getLsbD (j - p)) hfield
      by_cases hhigh : j - p < k
      · simpa [hlow, hhigh, hj, show p + (j - p) = j by omega, show j - p < n by omega] using hbit
      · simp [hlow, hhigh, BitVec.getLsbD_of_ge v (j - p) (by omega)]

/-- The type bit and the event code are neighbours in the frame. -/
theorem bitcat_type_code (F : Frame) : bitcat (frameType F) (frameCode F) = F.extractLsb' 26 3 := by
  rw [frameType_eq, frameCode_eq]
  apply BitVec.eq_of_getLsbD_eq
  intro i hi
  rw [bitcat_getLsbD]
  by_cases hcode : i < 2
  · simp [hi, hcode]
  · simp [show i = 2 by omega]

theorem rowMatches_typeCode (F : Frame) (t : BitVec 1) (e : BitVec 2) :
    rowMatches F 0x1C000000 ((bitcat t e : BitVec 3).setWidth 32 <<< 26) = (frameType F == t && frameCode F == e) := by
  have hmask : (0x1C000000 : Frame) = (BitVec.allOnes 3).setWidth 32 <<< 26 := by decide
  rw [hmask, rowMatches_field 26 (by decide), ← bitcat_type_code, Bool.eq_iff_iff]
  simp [bitcat_inj (show 1 + 2 ≤ 3 by decide)]

theorem rowMatches_type (F : Frame) (t : BitVec 1) :
    rowMatches F 0x10000000 (t.setWidth 32 <<< 28) = (frameType F == t) := by
  have hmask : (0x10000000 : Frame) = (BitVec.allOnes 1).setWidth 32 <<< 28 := by decide
  rw [hmask, rowMatches_field 28 (by decide), frameType_eq]

/-- The class of a frame by its fields, in the order of 30_encoding.md R96. -/
theorem decodeZ_fields (F : Frame) :
    decodeZ F =
      if (frameType F == 0 && frameCode F == 0) && zoneValid (frameZone F) then .zclosed F
      else if (frameType F == 0 && frameCode F == 1) && zoneValid (frameZone F) then .zopen F
      else if frameType F == 0 && frameCode F == 2 then .zrsvEc2 F
      else if frameType F == 0 && frameCode F == 3 then .zrsvEc3 F
      else if frameType F == 1 then .zrsvT1 F
      else .zdrop F := by
  rw [← rowMatches_typeCode, ← rowMatches_typeCode, ← rowMatches_typeCode, ← rowMatches_typeCode, ← rowMatches_type,
    frameZone_eq]
  rfl

theorem frameType_cases (F : Frame) : frameType F = 0 ∨ frameType F = 1 := by
  generalize frameType F = t
  decide +revert

theorem frameCode_cases (F : Frame) : frameCode F = 0 ∨ frameCode F = 1 ∨ frameCode F = 2 ∨ frameCode F = 3 := by
  generalize frameCode F = e
  decide +revert

theorem code_le_one_iff (e : BitVec 2) : e.toNat ≤ 1 ↔ e = 0 ∨ e = 1 := by
  decide +revert

/-- The Z classes of a frame (30_encoding.md R96). -/
def zClasses (F : Frame) : List Instr := [.zclosed F, .zopen F, .zrsvEc2 F, .zrsvEc3 F, .zrsvT1 F, .zdrop F]

/-- A frame is of the class it decodes to. -/
theorem decodeZ_wellFormed (n : Nat) (F : Frame) : (decodeZ F).wellFormed n = true := by
  rw [decodeZ_fields]
  rcases frameType_cases F with ht | ht
  · rcases frameCode_cases F with he | he | he | he <;> by_cases hz : zoneValid (frameZone F) = true <;>
      simp [ht, he, hz, Instr.wellFormed]
  · simp [ht, Instr.wellFormed]

/-- The classes exclude one another, so a frame decodes to the class it is of. -/
theorem decodeZ_of_wellFormed {n : Nat} {F : Frame} {i : Instr} (hi : i ∈ zClasses F) (hwf : i.wellFormed n = true) :
    decodeZ F = i := by
  simp only [zClasses, List.mem_cons, List.not_mem_nil, or_false] at hi
  rw [decodeZ_fields]
  rcases hi with rfl | rfl | rfl | rfl | rfl | rfl <;>
    simp only [Instr.wellFormed, Bool.and_eq_true, beq_iff_eq, decide_eq_true_eq, Bool.not_eq_true'] at hwf
  · simp [hwf]
  · simp [hwf]
  · simp [hwf]
  · simp [hwf]
  · simp [hwf]
  · obtain ⟨⟨ht, he⟩, hz⟩ := hwf
    rcases (code_le_one_iff _).1 he with he | he <;> simp [ht, he, hz]

theorem decodeZ_eq_iff (n : Nat) {F : Frame} {i : Instr} (hi : i ∈ zClasses F) :
    decodeZ F = i ↔ i.wellFormed n = true :=
  ⟨fun h => h ▸ decodeZ_wellFormed n F, decodeZ_of_wellFormed hi⟩

theorem zoneValid_iff (z : BitVec 5) : zoneValid z = true ↔ 1 ≤ z.toNat ∧ z.toNat ≤ 8 := by
  rw [zoneValid, Bool.and_eq_true, decide_eq_true_iff, decide_eq_true_iff]
  rfl

theorem not_zoneValid_iff (z : BitVec 5) : zoneValid z = false ↔ z.toNat = 0 ∨ 9 ≤ z.toNat := by
  rw [← Bool.not_eq_true, zoneValid_iff]
  omega

/-- Settles O16: a class is decoded exactly on the frames well-formed for it, and that check reads the fields. -/
theorem classesFollowFields : Obligations.ClassesFollowFields := by
  intro F
  simp only [decodeFrame, ← frameType_eq, ← frameCode_eq, ← frameZone_eq, ← zoneValid_iff, ← not_zoneValid_iff,
    ← code_le_one_iff]
  refine ⟨?_, ?_, ?_, ?_, ?_, ?_, trivial⟩ <;> rw [decodeZ_eq_iff 0 (by simp [zClasses])] <;>
    simp [Instr.wellFormed, and_assoc]

end Sys2Proof

/-! A frame's operations against the machine's frame processing (30_encoding.md R104, 40_framesync.md R122, R133). -/

namespace Sys2Proof.Machine

theorem runOps_decodeSlices {s : State} (hidle : s.unp = .idle) (F : Frame) :
    runOps (decodeSlices s.layout F) s = .next (s.drive (decodeEvent s.layout F).ports) := by
  cases hlayout : s.layout <;>
    simp [decodeSlices, runOps, hlayout, hidle, EventPorts.idle, decodeEvent, DecodedEvent.ports, State.drive]

/-- The class of a bitfield frame gives the intent that dispatch decides (42_dispatch_cam.md R189). -/
theorem exec_decodeZ (F : Frame) (s : State) :
    exec (decodeZ F) s =
      .next (s.emitFrame F (decodeEvent .bitfield F) (dispatchEvent s.cam (decodeEvent .bitfield F))) := by
  rw [decodeZ_fields]
  simp only [decodeEvent, dispatchEvent, zoneEventValid]
  rcases frameType_cases F with ht | ht
  · rcases frameCode_cases F with he | he | he | he <;> by_cases hz : zoneValid (frameZone F) = true <;>
      simp [ht, he, hz, decodeEvent]
  · simp [ht, decodeEvent]

theorem exec_decodeFrame (l : Layout) (F : Frame) (s : State) :
    exec (decodeFrame l F) s = .next (s.emitFrame F (decodeEvent l F) (dispatchEvent s.cam (decodeEvent l F))) := by
  cases l with
  | bitfield => exact exec_decodeZ F s
  | codeBytes => rfl

/-- The operations of a frame, run one by one, are `process_frame` (40_framesync.md R133). -/
theorem runOps_decode_frame {s : State} (hidle : s.unp = .idle) (n : Nat) (F : Frame) :
    runOps (decode n (.frame s.layout F)) s = .next (s.processFrame F) := by
  rw [decode, runOps_append _ (runOps_decodeSlices hidle F), runOps_singleton, exec_decodeFrame]
  rfl

theorem acceptByte_of_fourth {s : State} (hrun : s.run = .running) (hcnt : s.cnt = 3) (b : Byte) :
    s.acceptByte b = (s.processFrame (frameOf s.buf0 s.buf1 s.buf2 b)).epilogue := by
  rcases s.acceptByte_cases b with ⟨hne, _⟩ | ⟨_, hle, _⟩ | ⟨_, _, heq⟩
  · exact absurd hrun hne
  · simp [hcnt] at hle
  · exact heq

/-- Settles O25: the state `t` is that of `process_frame`, which the fourth byte takes to the epilogue. -/
theorem frameRunsItsOperations : Obligations.FrameRunsItsOperations := by
  intro s b hrun hcnt hidle
  refine ⟨_, runOps_decode_frame hidle _ _, ?_⟩
  rw [exec_rxbyte, acceptByte_of_fourth hrun hcnt, State.epilogue_eq, State.processFrame_eq]
  simp only [State.emitAll, State.drive, hrun]

end Sys2Proof.Machine

/-! Decoder and encoder (30_encoding.md R100 to R105): the words of an operation decode to it, and whatever is decoded is an
operation of the machine. -/

namespace Sys2Proof

/-! ## The cycles the encoder writes -/

theorem streamWord_idle : streamWord false false false false 0 = 0 := by decide

theorem hostWord_idle : hostWord false false 0 0 = 0 := by decide

theorem decode_streamOnly (n : Nat) (t c e : Bool) (b : Byte) :
    decode n (streamOnly (streamWord false t c e b)) =
      orNop ((if e then [.rxbyte b] else []) ++ (if c then [.rxclose] else []) ++ (if t then [.tick] else [])) := by
  rw [streamOnly, ← hostWord_idle, decode, Machine.decodeCycle_ports, decodeRead_none, decodeWrite_none]
  simp

theorem decode_writeOnly {n : Nat} {a : Addr} {v : Word32} {i : Instr}
    (h : decodeWrite n (hostWord true false a v) = some i) : decode n (writeOnly a v) = [i] := by
  rw [writeOnly, ← streamWord_idle, decode, Machine.decodeCycle_ports, decodeRead_none, h]
  rfl

theorem decode_readOnly {n : Nat} {a : Addr} {i : Instr}
    (h : decodeRead n (hostWord false true a 0) = some i) : decode n (readOnly a) = [i] := by
  rw [readOnly, ← streamWord_idle, decode, Machine.decodeCycle_ports, decodeWrite_none, h]
  rfl

/-! ## CAM indices (10_state.md R36, R37) -/

theorem camkeyAddr_toNat (i : CamIndex) : (camkeyAddr i).toNat = 64 + 2 * i.toNat := by
  have hindex : i.toNat < 64 := i.isLt
  rw [camkeyAddr, BitVec.toNat_ofNat, Config.camBase]
  omega

theorem camdataAddr_toNat (i : CamIndex) : (camdataAddr i).toNat = 65 + 2 * i.toNat := by
  have hindex : i.toNat < 64 := i.isLt
  rw [camdataAddr, BitVec.toNat_ofNat, Config.camBase]
  omega

theorem camAddr_iff (n : Nat) (a : Addr) : camAddr n a = true ↔ 64 ≤ a.toNat ∧ a.toNat < 64 + 2 * n := by
  rw [camAddr, Bool.and_eq_true, decide_eq_true_iff, decide_eq_true_iff]
  rfl

theorem camIndexOf_toNat (a : Addr) : (camIndexOf a).toNat = (a.toNat - 64) / 2 % 64 := by
  simp [camIndexOf, Config.camBase]

theorem camIndexOf_camkeyAddr (i : CamIndex) : camIndexOf (camkeyAddr i) = i := by
  apply BitVec.eq_of_toNat_eq
  rw [camIndexOf_toNat, camkeyAddr_toNat]
  omega

theorem camIndexOf_camdataAddr (i : CamIndex) : camIndexOf (camdataAddr i) = i := by
  apply BitVec.eq_of_toNat_eq
  rw [camIndexOf_toNat, camdataAddr_toNat]
  omega

/-- A CAM index names an entry that the machine has. -/
theorem camIndexOf_lt {n : Nat} {a : Addr} (h : camAddr n a = true) : (camIndexOf a).toNat < n := by
  have hrange := (camAddr_iff n a).1 h
  rw [camIndexOf_toNat]
  omega

theorem ne_of_camAddr {n : Nat} {a k : Addr} (h : camAddr n a = true) (hk : k.toNat < 64) : a ≠ k := by
  rintro rfl
  have hrange := (camAddr_iff n a).1 h
  omega

theorem decodeWrite_cam {n : Nat} {a : Addr} (h : camAddr n a = true) (v : Word32) :
    decodeWrite n (hostWord true false a v) =
      some (if a.toNat % 2 = 0 then .wrCamkey (camIndexOf a) v else .wrCamdata (camIndexOf a) v) := by
  rw [decodeWrite_hostWord]
  simp [h, ne_of_camAddr h]

theorem decodeRead_cam {n : Nat} {a : Addr} (h : camAddr n a = true) :
    decodeRead n (hostWord false true a 0) =
      some (if a.toNat % 2 = 0 then .rdCamkey (camIndexOf a) else .rdCamdata (camIndexOf a)) := by
  rw [decodeRead_hostWord]
  simp [h, ne_of_camAddr h]

section

variable {n : Nat} {i : CamIndex} (hi : i.toNat < n)
include hi

theorem camAddr_camkeyAddr : camAddr n (camkeyAddr i) = true := by
  rw [camAddr_iff, camkeyAddr_toNat]
  omega

theorem camAddr_camdataAddr : camAddr n (camdataAddr i) = true := by
  rw [camAddr_iff, camdataAddr_toNat]
  omega

theorem decodeWrite_camkeyAddr (v : Word32) :
    decodeWrite n (hostWord true false (camkeyAddr i) v) = some (.wrCamkey i v) := by
  rw [decodeWrite_cam (camAddr_camkeyAddr hi), camIndexOf_camkeyAddr, if_pos (by rw [camkeyAddr_toNat]; omega)]

theorem decodeWrite_camdataAddr (v : Word32) :
    decodeWrite n (hostWord true false (camdataAddr i) v) = some (.wrCamdata i v) := by
  rw [decodeWrite_cam (camAddr_camdataAddr hi), camIndexOf_camdataAddr, if_neg (by rw [camdataAddr_toNat]; omega)]

theorem decodeRead_camkeyAddr : decodeRead n (hostWord false true (camkeyAddr i) 0) = some (.rdCamkey i) := by
  rw [decodeRead_cam (camAddr_camkeyAddr hi), camIndexOf_camkeyAddr, if_pos (by rw [camkeyAddr_toNat]; omega)]

theorem decodeRead_camdataAddr : decodeRead n (hostWord false true (camdataAddr i) 0) = some (.rdCamdata i) := by
  rw [decodeRead_cam (camAddr_camdataAddr hi), camIndexOf_camdataAddr, if_neg (by rw [camdataAddr_toNat]; omega)]

end

/-! ## The last rows: what no earlier row takes (30_encoding.md R102, R103) -/

theorem writeIgnored_iff (n : Nat) (a : Addr) (v : Word32) :
    writeIgnored n a v = true ↔
      ¬ (a = 0 ∧ v.getLsbD 1 = true) ∧ ¬ (a = 0 ∧ v.getLsbD 0 = true) ∧ a ≠ 2 ∧ a ≠ 3 ∧ ¬ camAddr n a = true := by
  by_cases h0 : a = 0#8
  · subst h0
    simp [writeIgnored, and_assoc, and_comm]
  · simp [writeIgnored, h0, and_assoc]

theorem readReserved_iff (n : Nat) (a : Addr) :
    readReserved n a = true ↔
      a ≠ 0 ∧ a ≠ 1 ∧ a ≠ 2 ∧ a ≠ 3 ∧ a ≠ 4 ∧ a ≠ 5 ∧ ¬ camAddr n a = true := by
  have hbelow : 5 < a.toNat ↔ a ≠ 0 ∧ a ≠ 1 ∧ a ≠ 2 ∧ a ≠ 3 ∧ a ≠ 4 ∧ a ≠ 5 := by
    decide +revert
  simp [readReserved, hbelow, and_assoc]

theorem decodeWrite_ignored {n : Nat} {a : Addr} {v : Word32} (h : writeIgnored n a v = true) :
    decodeWrite n (hostWord true false a v) = some (.wrIgn a v) := by
  obtain ⟨hstop, hstart, hcfg, htmo, hcam⟩ := (writeIgnored_iff n a v).1 h
  rw [decodeWrite_hostWord, if_neg hstop, if_neg hstart, if_neg hcfg, if_neg htmo, if_neg hcam]

theorem decodeRead_reserved {n : Nat} {a : Addr} (h : readReserved n a = true) :
    decodeRead n (hostWord false true a 0) = some (.rdRsvd a) := by
  obtain ⟨h0, h1, h2, h3, h4, h5, hcam⟩ := (readReserved_iff n a).1 h
  rw [decodeRead_hostWord, if_neg h0, if_neg h1, if_neg h2, if_neg h3, if_neg h4, if_neg h5, if_neg hcam]

/-! ## Decode of encode -/

/-- A cycle's operation: a stream or reset word decodes by its ports, a host word by the row its index falls in. -/
theorem decode_encode_of_cycle {n : Nat} {i : Instr} (hkind : i.kind = .cycle) (hwf : i.wellFormed n = true) :
    decode n (encode i) = [i] := by
  cases i with
  | reset => exact Machine.decodeCycle_of_reset n _ (streamWord_rst ..)
  | rxbyte b => exact decode_streamOnly n false false true b
  | rxclose => exact decode_streamOnly n false true false 0
  | tick => exact decode_streamOnly n true false false 0
  | nop => exact decode_streamOnly n false false false 0
  | stop | start => exact decode_writeOnly (by simp [decodeWrite_hostWord])
  | wrCfg v | wrTmo v => exact decode_writeOnly (by simp [decodeWrite_hostWord])
  | wrCamkey k v => exact decode_writeOnly (decodeWrite_camkeyAddr (of_decide_eq_true hwf) v)
  | wrCamdata k v => exact decode_writeOnly (decodeWrite_camdataAddr (of_decide_eq_true hwf) v)
  | wrIgn a v => exact decode_writeOnly (decodeWrite_ignored hwf)
  | rdCtrl | rdStatus | rdCfg | rdTmo | rdBuf | rdId => exact decode_readOnly (by simp [decodeRead_hostWord])
  | rdCamkey k => exact decode_readOnly (decodeRead_camkeyAddr (of_decide_eq_true hwf))
  | rdCamdata k => exact decode_readOnly (decodeRead_camdataAddr (of_decide_eq_true hwf))
  | rdRsvd a => exact decode_readOnly (decodeRead_reserved hwf)
  | _ => cases hkind

/-- A frame class's words are a frame of that class under its layout. -/
theorem encode_of_frameClass {n : Nat} {i : Instr} (hkind : i.kind = .frameClass) (hwf : i.wellFormed n = true) :
    ∃ l F, encode i = .frame l F ∧ decodeFrame l F = i := by
  cases i with
  | zclosed F | zopen F | zrsvEc2 F | zrsvEc3 F | zrsvT1 F | zdrop F =>
    exact ⟨.bitfield, F, rfl, decodeZ_of_wellFormed (by simp [zClasses]) hwf⟩
  | kevt F => exact ⟨.codeBytes, F, rfl, rfl⟩
  | _ => cases hkind

theorem mem_decode_encode_of_slice (n : Nat) {i : Instr} (hkind : i.kind = .slice) : i ∈ decode n (encode i) := by
  cases i with
  | unpType F | unpCode F | unpZone F | unpHours F | unpMinutes F | unpKey F => simp [encode, decode, decodeSlices]
  | _ => cases hkind

/-- Settles O52, by the kind of the operation. -/
theorem decodeEncodeAgree : Obligations.DecodeEncodeAgree := by
  intro n i hwf
  cases hkind : i.kind with
  | cycle => exact decode_encode_of_cycle hkind hwf
  | frameClass =>
    obtain ⟨l, F, hencode, hclass⟩ := encode_of_frameClass hkind hwf
    exact ⟨l, F, hencode, by rw [hencode, decode, hclass]⟩
  | slice => exact mem_decode_encode_of_slice n hkind

/-! ## Every decoded operation is well-formed -/

theorem decodeWrite_wellFormed {n : Nat} {hw : HostWord} {i : Instr} (h : decodeWrite n hw = some i) :
    i.wellFormed n = true := by
  rw [← hostWord_eta hw] at h
  cases hwe : hw.getLsbD 41 with
  | false =>
    rw [hwe, decodeWrite_none] at h
    cases h
  | true =>
    rw [hwe, decodeWrite_hostWord, Option.some.injEq] at h
    subst h
    split_ifs with hstop hstart hcfg htmo hcam heven
    · rfl
    · rfl
    · rfl
    · rfl
    · exact decide_eq_true (camIndexOf_lt hcam)
    · exact decide_eq_true (camIndexOf_lt hcam)
    · exact (writeIgnored_iff ..).2 ⟨hstop, hstart, hcfg, htmo, hcam⟩

theorem decodeRead_wellFormed {n : Nat} {hw : HostWord} {i : Instr} (h : decodeRead n hw = some i) :
    i.wellFormed n = true := by
  rw [← hostWord_eta hw] at h
  cases hre : hw.getLsbD 40 with
  | false =>
    rw [hre, decodeRead_none] at h
    cases h
  | true =>
    rw [hre, decodeRead_hostWord, Option.some.injEq] at h
    subst h
    split_ifs with h0 h1 h2 h3 h4 h5 hcam heven
    · rfl
    · rfl
    · rfl
    · rfl
    · rfl
    · rfl
    · exact decide_eq_true (camIndexOf_lt hcam)
    · exact decide_eq_true (camIndexOf_lt hcam)
    · exact (readReserved_iff ..).2 ⟨h0, h1, h2, h3, h4, h5, hcam⟩

theorem mem_orNop {i : Instr} {l : List Instr} (h : i ∈ orNop l) : i = .nop ∨ i ∈ l := by
  cases l with
  | nil => exact .inl (List.mem_singleton.1 h)
  | cons j js => exact .inr h

theorem mem_decodeStream {i : Instr} {sw : StreamWord} (h : i ∈ decodeStream sw) :
    i = .rxbyte (streamData sw) ∨ i = .rxclose ∨ i = .tick := by
  simp only [decodeStream, List.mem_append, List.mem_ite_nil_right, List.mem_singleton] at h
  obtain (⟨_, hbyte⟩ | ⟨_, hclose⟩) | ⟨_, htick⟩ := h
  · exact .inl hbyte
  · exact .inr (.inl hclose)
  · exact .inr (.inr htick)

theorem mem_decodeCycle {n : Nat} {x : Stimulus} {i : Instr} (h : i ∈ decodeCycle n x) :
    i = .reset ∨ i = .nop ∨ decodeRead n x.hw = some i ∨ i ∈ decodeStream x.sw ∨ decodeWrite n x.hw = some i := by
  unfold decodeCycle at h
  split at h
  · exact .inl (List.mem_singleton.1 h)
  · rcases mem_orNop h with hnop | hmem
    · exact .inr (.inl hnop)
    · simp only [List.mem_append, Option.mem_toList, or_assoc] at hmem
      exact .inr (.inr hmem)

theorem decodeCycle_wellFormed {n : Nat} {x : Stimulus} {i : Instr} (h : i ∈ decodeCycle n x) :
    i.wellFormed n = true := by
  rcases mem_decodeCycle h with rfl | rfl | hread | hstream | hwrite
  · rfl
  · rfl
  · exact decodeRead_wellFormed hread
  · rcases mem_decodeStream hstream with rfl | rfl | rfl <;> rfl
  · exact decodeWrite_wellFormed hwrite

theorem decodeSlices_wellFormed (n : Nat) {l : Layout} {F : Frame} {i : Instr} (h : i ∈ decodeSlices l F) :
    i.wellFormed n = true := by
  cases l <;> simp only [decodeSlices, List.mem_cons, List.not_mem_nil, or_false] at h
  case bitfield => rcases h with rfl | rfl | rfl | rfl | rfl <;> rfl
  case codeBytes => rcases h with rfl | rfl | rfl <;> rfl

theorem decodeFrame_wellFormed (n : Nat) (l : Layout) (F : Frame) : (decodeFrame l F).wellFormed n = true := by
  cases l with
  | bitfield => exact decodeZ_wellFormed n F
  | codeBytes => rfl

/-- Settles O53: the operations of a cycle come from its rows, those of a frame are its slices and its class. -/
theorem decodedOperationsAreWellFormed : Obligations.DecodedOperationsAreWellFormed := by
  intro n e i hmem
  cases e with
  | cycle x => exact decodeCycle_wellFormed hmem
  | frame l F =>
    rcases List.mem_append.1 hmem with hslice | hclass
    · exact decodeSlices_wellFormed n hslice
    · rw [List.mem_singleton.1 hclass]
      exact decodeFrame_wellFormed n l F

/-- Settles O54: the decoder evaluated on each of the spec's six words. -/
theorem sampleWordsDecode : Obligations.SampleWordsDecode :=
  ⟨by decide, by decide, by decide, by decide, by decide, by decide⟩

end Sys2Proof

/-! The stream operations one at a time (40_framesync.md R120 to R125): the gate, and what each does in RUNNING. -/

namespace Sys2Proof

/-- A frame is made of its four bytes, the first one most significant (40_framesync.md R122). -/
theorem frameOf_eta (F : Frame) : frameOf (frameByte0 F) (frameByte1 F) (frameByte2 F) (frameByte3 F) = F := by
  change bitcat (frameW0 F) (frameW1 F) = F
  rw [frameW0_eq, frameW1_eq, bitcat_eta F (by decide)]

end Sys2Proof

namespace Sys2Proof.Machine

/-! ## Outside RUNNING -/

section

variable {s : State} (h : s.run ≠ .running)
include h

theorem acceptByte_of_not_running (b : Byte) : s.acceptByte b = s := if_pos h

theorem sourceClosed_of_not_running : s.sourceClosed = s := if_pos h

theorem timebaseTick_of_not_running : s.timebaseTick = s := if_pos h

/-- Of the phases before the host's, only the read acts outside RUNNING. -/
theorem beforeHost_of_not_running (i : CycleInput) : beforeHost i s = phaseRead i.hostRd s := by
  have hread : (phaseRead i.hostRd s).run ≠ .running := by cases i.hostRd <;> exact h
  have hbyte : phaseByte i.byte (phaseRead i.hostRd s) = phaseRead i.hostRd s := by
    cases i.byte with
    | none => rfl
    | some b => exact acceptByte_of_not_running hread b
  have hclose : phaseClose i.closed (phaseRead i.hostRd s) = phaseRead i.hostRd s :=
    (congrArg (ite _ · _) (sourceClosed_of_not_running hread)).trans (ite_self _)
  have htick : phaseTick i.tick (phaseRead i.hostRd s) = phaseRead i.hostRd s :=
    (congrArg (ite _ · _) (timebaseTick_of_not_running hread)).trans (ite_self _)
  rw [beforeHost, hbyte, hclose, htick]

end

/-- The step is the cycle on the ports of its stimulus (43_control_host.md R200). -/
theorem step_eq_cycleOf (s : State) : step s = .next (cycleOf (cycleInputOf s.nextStimulus) s.beginCycle) :=
  runOps_decodeCycle s.nextStimulus s.beginCycle

/-- Outside RUNNING a step without reset is the read and the host phase. -/
theorem step_of_not_running {s : State} (h : s.run ≠ .running) (hrst : s.nextStimulus.sw.getLsbD 11 = false) :
    step s = .next (phaseHost (cycleInputOf s.nextStimulus).hostWr
      (phaseRead (cycleInputOf s.nextStimulus).hostRd s.beginCycle)) := by
  rw [step_eq_cycleOf, cycleOf_of_no_reset hrst, beforeHost_of_not_running (s := s.beginCycle) h]

/-- Settles O4: outside RUNNING each operation is gated, and a step reads the host word only. -/
theorem streamGatedOutsideRunning : Obligations.StreamGatedOutsideRunning := by
  intro s h
  refine ⟨fun b => ⟨?_, ?_, ?_⟩, fun sw hw rest hrst hstim => ?_⟩
  · rw [exec_rxbyte, acceptByte_of_not_running h]
  · rw [exec_rxclose, sourceClosed_of_not_running h]
  · rw [exec_tick, timebaseTick_of_not_running h]
  · have hnext : s.nextStimulus = ⟨sw, hw⟩ := by simp [State.nextStimulus, hstim]
    have hbegin : s.beginCycle = State.beginCycle { s with stim := ⟨0, hw⟩ :: rest } := by
      simp [State.beginCycle, hstim]
    rw [step_of_not_running h (by rw [hnext]; exact hrst), hnext, hbegin]
    exact (step_of_not_running (s := { s with stim := ⟨0, hw⟩ :: rest }) h BitVec.getLsbD_zero).symm

/-! ## In RUNNING -/

section

variable {s : State} (hrun : s.run = .running)
include hrun

theorem acceptByte_of_early (hcnt : s.cnt.toNat ≤ 2) (b : Byte) :
    s.acceptByte b = { s with
      buf0 := if s.cnt = 0 then b else s.buf0
      buf1 := if s.cnt = 1 then b else s.buf1
      buf2 := if s.cnt = 2 then b else s.buf2
      cnt := s.cnt + 1
      tmoCnt := if s.cnt = 0 then s.tmoReload else s.tmoCnt } := by
  rw [← State.storeByte_eq b s hcnt, State.acceptByte, if_neg (not_not_intro hrun), if_pos hcnt]

theorem timebaseTick_of_open (hopen : 1 < s.tmoCnt.toNat) : s.timebaseTick = { s with tmoCnt := s.tmoCnt - 1 } := by
  rw [State.timebaseTick, if_neg (not_not_intro hrun), if_pos hopen]

theorem timebaseTick_of_expired (hlast : s.tmoCnt.toNat ≤ 1) :
    s.timebaseTick =
      (s.emitAll [if s.cnt = 0 then .timeout else .partialFrame s.cnt s.buf0 s.buf1 s.buf2]).epilogue := by
  rcases s.timebaseTick_cases with ⟨hne, _⟩ | ⟨_, hopen, _⟩ | ⟨_, _, heq⟩
  · exact absurd hrun hne
  · omega
  · exact heq

theorem sourceClosed_of_running :
    s.sourceClosed =
      ((s.emitAll ((if s.cnt = 0 then [] else [.partialFrame s.cnt s.buf0 s.buf1 s.buf2]) ++ [.fatal 3])).clearBuf).halt :=
  s.sourceClosed_cases.elim (fun hgate => absurd hrun hgate.1) And.right

end

/-- Settles O5: with fewer than three bytes held the byte is stored, in one record. -/
theorem earlyBytesAreStored : Obligations.EarlyBytesAreStored := by
  intro s b hrun hcnt
  rw [exec_rxbyte, acceptByte_of_early hrun hcnt]

/-- Settles O6: the three held bytes and the fourth are the frame's bytes, and `process_frame` meets the epilogue. -/
theorem fourthByteCompletesFrame : Obligations.FourthByteCompletesFrame := by
  intro s b F hrun hcnt h0 h1 h2 h3
  have hframe : frameOf s.buf0 s.buf1 s.buf2 b = F := by rw [← h0, ← h1, ← h2, ← h3]; exact frameOf_eta F
  rw [exec_rxbyte, acceptByte_of_fourth hrun hcnt, hframe, State.epilogue_eq, State.processFrame_eq]
  simp only [State.emitAll, State.drive, hrun, frameEvents, List.cons_append, List.nil_append]

/-- Settles O7: a window with ticks left goes down, one without ends in its outcome's epilogue. -/
theorem tickCountsDownOrExpires : Obligations.TickCountsDownOrExpires := by
  intro s hrun
  refine ⟨fun hopen => ?_, fun hlast => ?_⟩
  · rw [exec_tick, timebaseTick_of_open hrun hopen]
  · rw [exec_tick, timebaseTick_of_expired hrun hlast, State.epilogue_eq]
    simp only [State.emitAll, hrun]

/-- Settles O8: by whether bytes are held, which is whether PARTIAL comes before FATAL. -/
theorem closureDisconnects : Obligations.ClosureDisconnects := by
  intro s hrun
  rw [exec_rxclose, sourceClosed_of_running hrun]
  by_cases hcnt : s.cnt = 0
  · simp only [hcnt, if_true]; rfl
  · simp only [hcnt, if_false]; rfl

end Sys2Proof.Machine

/-! Runs of many cycles (40_framesync.md R131): what a byte cycle, a tick cycle and a window of ticks do to a read in
flight. The steps compose up to the ports, which every cycle begins anew. -/

namespace Sys2Proof.Machine

/-! ## Runs up to the ports of their last cycle -/

/-- What a cycle hands on to the next: the state but for the cycle's ports, which `beginCycle` sets anew. -/
def State.lasting (s : State) : State := { s with out := [], rdata := 0, unp := .idle }

/-- `k` cycles lead from `s` to `t`, up to the ports of the last cycle. -/
def RunsTo (k : Nat) (s t : State) : Prop := ∃ u, runCycles k s = .next u ∧ u.lasting = t.lasting

theorem step_lasting (s : State) : step s.lasting = step s := rfl

theorem runCycles_succ {s t : State} (h : step s = .next t) (k : Nat) : runCycles (k + 1) s = runCycles k t := by
  simp only [runCycles, h]

theorem runCycles_add {j : Nat} {s t : State} (h : runCycles j s = .next t) (k : Nat) :
    runCycles (j + k) s = runCycles k t := by
  induction j generalizing s with
  | zero => cases h; rw [Nat.zero_add]
  | succ j ih =>
    obtain ⟨u, hstep⟩ := everyCycleCompletes s
    rw [runCycles_succ hstep] at h
    rw [Nat.succ_add, runCycles_succ hstep, ih h]

theorem RunsTo.of_lasting_eq {s t : State} (h : s.lasting = t.lasting) : RunsTo 0 s t := ⟨s, rfl, h⟩

theorem RunsTo.of_step {s t u : State} (hstep : step s = .next u) (h : u.lasting = t.lasting) : RunsTo 1 s t :=
  ⟨u, runCycles_succ hstep 0, h⟩

/-- A run does not see the ports of the cycle before it. -/
theorem RunsTo.congr_start {k : Nat} {s s' t : State} (h : RunsTo k s t) (hs : s.lasting = s'.lasting) :
    RunsTo k s' t := by
  obtain ⟨u, hrun, hu⟩ := h
  cases k with
  | zero => cases hrun; exact .of_lasting_eq (hs.symm.trans hu)
  | succ k =>
    have hstep : step s' = step s := by rw [← step_lasting s', ← hs, step_lasting]
    exact ⟨u, by rw [← hrun, runCycles, runCycles, hstep], hu⟩

theorem RunsTo.trans {j k : Nat} {s t u : State} (hst : RunsTo j s t) (htu : RunsTo k t u) : RunsTo (j + k) s u := by
  obtain ⟨t', hrun, ht'⟩ := hst
  obtain ⟨u', hrun', hu'⟩ := htu.congr_start ht'.symm
  exact ⟨u', by rw [runCycles_add hrun, hrun'], hu'⟩

theorem RunsTo.head {k : Nat} {s t u : State} (hst : RunsTo 1 s t) (htu : RunsTo k t u) : RunsTo (k + 1) s u :=
  Nat.add_comm 1 k ▸ hst.trans htu

/-! ## A byte cycle and a tick cycle -/

theorem script_byte_eq (b : Byte) : Script.byte b = ⟨streamWord false false false true b, 0⟩ := rfl

theorem cycleInputOf_byte (b : Byte) : cycleInputOf (Script.byte b) = ⟨false, some b, false, false, none, none⟩ := by
  have hdata : (streamWord false false false true b).extractLsb' 0 8 = b := streamData_streamWord ..
  simp [cycleInputOf, script_byte_eq, hdata, -BitVec.getLsbD_eq_getElem]

theorem cycleInputOf_tick : cycleInputOf Script.tick = ⟨false, none, false, true, none, none⟩ := by decide

theorem step_byte {s : State} {b : Byte} {rest : List Stimulus} (h : s.stim = Script.byte b :: rest) :
    step s = .next (s.beginCycle.acceptByte b) := by
  rw [step_eq_cycleOf, State.nextStimulus, h]
  simp only [cycleInputOf_byte]
  rfl

theorem step_tick {s : State} {rest : List Stimulus} (h : s.stim = Script.tick :: rest) :
    step s = .next s.beginCycle.timebaseTick := by
  rw [step_eq_cycleOf, State.nextStimulus, h]
  simp only [cycleInputOf_tick]
  rfl

/-! ## A read in flight and its end -/

/-- `s` in the middle of a read: the bytes `bs` held, `w` ticks of the window left, the cycles of `rest` to come. -/
def State.reading (bs : List Byte) (w : BitVec 8) (rest : List Stimulus) (s : State) : State :=
  { s with
    cnt := BitVec.ofNat 2 bs.length
    buf0 := bs.getD 0 s.buf0
    buf1 := bs.getD 1 s.buf1
    buf2 := bs.getD 2 s.buf2
    tmoCnt := w
    stim := rest }

/-- `s` after outcomes with the events `es` and no stop waiting: a fresh read, the cycles of `rest` to come. -/
def State.nextRead (es : List OutEvent) (rest : List Stimulus) (s : State) : State :=
  { (s.emitAll es).clearBuf.reload with stim := rest }

theorem State.nextRead_nextRead (es es' : List OutEvent) (rest rest' : List Stimulus) (s : State) :
    (s.nextRead es rest).nextRead es' rest' = s.nextRead (es ++ es') rest' := by
  simp [State.nextRead, State.emitAll, State.clearBuf, State.reload]

/-- The event of a read whose window ends with `bs` held (40_framesync.md R124). -/
def expiryEvent (bs : List Byte) (s : State) : OutEvent :=
  if bs = [] then .timeout
  else .partialFrame (BitVec.ofNat 2 bs.length) (bs.getD 0 s.buf0) (bs.getD 1 s.buf1) (bs.getD 2 s.buf2)

theorem ofNat_length_eq_zero_iff {bs : List Byte} (hlen : bs.length ≤ 3) : BitVec.ofNat 2 bs.length = 0 ↔ bs = [] := by
  rw [← List.length_eq_zero_iff, ← BitVec.toNat_inj, BitVec.toNat_ofNat]
  simp only [BitVec.ofNat_eq_ofNat, BitVec.toNat_ofNat]
  omega

theorem toNat_sub_ticks {n : Nat} {w : BitVec 8} (h : n ≤ w.toNat) : (w - BitVec.ofNat 8 n).toNat = w.toNat - n := by
  bv_omega

theorem epilogue_of_no_stop {s : State} (hreq : s.stopReq = false) : s.epilogue = s.clearBuf.reload := by
  simp [State.epilogue, hreq]

section

variable {s : State} (hrun : s.run = .running)
include hrun

/-- The first byte of a frame opens the read-3 window (40_framesync.md R129). -/
theorem runsTo_first_byte (hcnt : s.cnt = 0) {b : Byte} {rest : List Stimulus} (hstim : s.stim = Script.byte b :: rest) :
    RunsTo 1 s (s.reading [b] s.tmoReload rest) := by
  refine .of_step (step_byte hstim) ?_
  rw [acceptByte_of_early (s := s.beginCycle) hrun (by simp [hcnt])]
  simp [State.reading, State.lasting, State.beginCycle, hcnt, hstim]

/-- The second and the third byte are held after the first and leave the window. -/
theorem runsTo_later_byte {bs : List Byte} (hne : bs ≠ []) (hlen : bs.length ≤ 2) (b : Byte) (w : BitVec 8)
    (rest : List Stimulus) :
    RunsTo 1 (s.reading bs w (Script.byte b :: rest)) (s.reading (bs ++ [b]) w rest) := by
  have hcnt : (BitVec.ofNat 2 bs.length).toNat ≤ 2 := (Nat.mod_le ..).trans hlen
  refine .of_step (step_byte rfl) ?_
  rw [acceptByte_of_early (by exact hrun) (by exact hcnt)]
  match bs with
  | [b0] => rfl
  | [b0, b1] => rfl

/-- The fourth byte completes the frame of the three held bytes and itself. -/
theorem runsTo_fourth_byte (hreq : s.stopReq = false) (b0 b1 b2 b3 : Byte) (w : BitVec 8) (rest : List Stimulus) :
    let ev := decodeEvent s.layout (frameOf b0 b1 b2 b3)
    RunsTo 1 (s.reading [b0, b1, b2] w (Script.byte b3 :: rest))
      (s.nextRead (frameEvents (frameOf b0 b1 b2 b3) ev (dispatchEvent s.cam ev)) rest) := by
  refine .of_step (step_byte rfl) ?_
  rw [acceptByte_of_fourth (by exact hrun) rfl, State.processFrame_eq, epilogue_of_no_stop (by exact hreq)]
  rfl

theorem runsTo_tick {w : BitVec 8} (hopen : 1 < w.toNat) (bs : List Byte) (rest : List Stimulus) :
    RunsTo 1 (s.reading bs w (Script.tick :: rest)) (s.reading bs (w - 1) rest) := by
  refine .of_step (step_tick rfl) ?_
  rw [timebaseTick_of_open (by exact hrun) (by exact hopen)]
  rfl

/-- Fewer ticks than the window has left only count it down. -/
theorem runsTo_ticks {n : Nat} {w : BitVec 8} (hopen : n < w.toNat) (bs : List Byte) (rest : List Stimulus) :
    RunsTo n (s.reading bs w (Script.ticks n ++ rest)) (s.reading bs (w - BitVec.ofNat 8 n) rest) := by
  induction n generalizing w with
  | zero => exact .of_lasting_eq (by simp [Script.ticks])
  | succ n ih =>
    have hless : (w - 1).toNat = w.toNat - 1 := toNat_sub_ticks (n := 1) (by omega)
    have hsub : w - 1 - BitVec.ofNat 8 n = w - BitVec.ofNat 8 (n + 1) := by bv_omega
    have htail := ih (w := w - 1) (by omega)
    rw [hsub] at htail
    exact (runsTo_tick hrun (by omega) bs _).head htail

/-- The last tick of the window ends the read with its outcome. -/
theorem runsTo_last_tick (hreq : s.stopReq = false) {w : BitVec 8} (hlast : w.toNat = 1) {bs : List Byte}
    (hlen : bs.length ≤ 3) (rest : List Stimulus) :
    RunsTo 1 (s.reading bs w (Script.tick :: rest)) (s.nextRead [expiryEvent bs s] rest) := by
  refine .of_step (step_tick rfl) ?_
  rw [timebaseTick_of_expired (by exact hrun) (by exact hlast.le), epilogue_of_no_stop (by exact hreq)]
  simp only [expiryEvent, ← ofNat_length_eq_zero_iff hlen]
  rfl

/-- A whole window of ticks ends the read with its outcome, and nothing else happens. -/
theorem runsTo_window (hreq : s.stopReq = false) {w : BitVec 8} (hopen : 1 ≤ w.toNat) {bs : List Byte}
    (hlen : bs.length ≤ 3) (rest : List Stimulus) :
    RunsTo w.toNat (s.reading bs w (Script.ticks w.toNat ++ rest)) (s.nextRead [expiryEvent bs s] rest) := by
  obtain ⟨n, hn⟩ : ∃ n, w.toNat = n + 1 := ⟨w.toNat - 1, by omega⟩
  have hlast : (w - BitVec.ofNat 8 n).toNat = 1 := by rw [toNat_sub_ticks (by omega)]; omega
  rw [hn, Script.ticks, List.replicate_succ', List.append_assoc]
  exact (runsTo_ticks hrun (by omega) bs _).trans (runsTo_last_tick hrun hreq hlast hlen rest)

/-- Bytes after the first, with no tick between them, are held in their order. -/
theorem runsTo_later_bytes {held : List Byte} (hne : held ≠ []) (bs : List Byte) (hlen : held.length + bs.length ≤ 3)
    (w : BitVec 8) (rest : List Stimulus) :
    RunsTo bs.length (s.reading held w (bs.map Script.byte ++ rest)) (s.reading (held ++ bs) w rest) := by
  induction bs generalizing held with
  | nil => exact .of_lasting_eq (by simp)
  | cons b bs ih =>
    simp only [List.length_cons] at hlen
    have htail := ih (held := held ++ [b]) (by simp) (by simp; omega)
    rw [← List.append_cons] at htail
    exact (runsTo_later_byte hrun hne (by omega) b w _).head htail

/-- Ticks inside the window and then a byte: the byte is held and the window has counted the ticks. -/
theorem runsTo_ticks_byte {n : Nat} {w : BitVec 8} (hopen : n < w.toNat) {bs : List Byte} (hne : bs ≠ [])
    (hlen : bs.length ≤ 2) (b : Byte) (rest : List Stimulus) :
    RunsTo (n + 1) (s.reading bs w (Script.ticks n ++ Script.byte b :: rest))
      (s.reading (bs ++ [b]) (w - BitVec.ofNat 8 n) rest) :=
  (runsTo_ticks hrun hopen bs _).trans (runsTo_later_byte hrun hne hlen b _ rest)

/-- A fresh read with no byte: each whole window of ticks gives one TIMEOUT and leaves a fresh read. -/
theorem runsTo_idle_windows (hreq : s.stopReq = false) (hpos : 1 ≤ s.tmoReload.toNat) (m : Nat) (es : List OutEvent)
    (rest : List Stimulus) :
    RunsTo (m * s.tmoReload.toNat) (s.nextRead es (Script.ticks (m * s.tmoReload.toNat) ++ rest))
      (s.nextRead (es ++ List.replicate m .timeout) rest) := by
  induction m generalizing es with
  | zero => simpa [Script.ticks] using RunsTo.of_lasting_eq rfl
  | succ m ih =>
    have hwindow := runsTo_window (s := s.nextRead es []) hrun hreq hpos (bs := []) (Nat.zero_le 3)
      (Script.ticks (m * s.tmoReload.toNat) ++ rest)
    have htail := ih (es ++ [.timeout])
    rw [List.append_assoc, List.singleton_append, ← List.replicate_succ] at htail
    rw [State.nextRead_nextRead] at hwindow
    rw [Nat.succ_mul, Nat.add_comm, Script.ticks, List.replicate_add, List.append_assoc]
    exact hwindow.trans htail

end

/-! ## The runs of R131 -/

/-- Settles O48: the first byte opens the window, the others are held after it, and the window of ticks ends the read. -/
theorem shortFrameGivesOnePartial : Obligations.ShortFrameGivesOnePartial := by
  intro s bs rest hinv hrun hcnt hreq hpos hlen hstim
  obtain ⟨b, bs, rfl⟩ : ∃ b bs', bs = b :: bs' := List.exists_cons_of_length_pos hpos
  rw [List.append_assoc] at hstim
  have hfirst := runsTo_first_byte hrun hcnt hstim
  have hlater := runsTo_later_bytes hrun (List.cons_ne_nil b []) bs (by simpa [Nat.add_comm] using hlen) s.tmoReload
    (Script.ticks s.tmoReload.toNat ++ rest)
  have hwindow := runsTo_window hrun hreq hinv.reload hlen rest
  obtain ⟨t, hcycles, ht⟩ := (hfirst.head hlater).trans hwindow
  have hevent : expiryEvent (b :: bs) s = .partialFrame (BitVec.ofNat 2 (b :: bs).length)
      ((b :: bs).getD 0 0) ((b :: bs).getD 1 0) ((b :: bs).getD 2 0) := by
    obtain ⟨hbuf0, hbuf1, hbuf2⟩ := hinv.buffer
    rw [expiryEvent, if_neg (List.cons_ne_nil b bs), hbuf0 hcnt, hbuf1 (by simp [hcnt]), hbuf2 (by simp [hcnt])]
  rw [hevent] at ht
  exact ⟨t, hcycles, congrArg State.trace ht, (congrArg State.run ht).trans hrun, congrArg State.cnt ht,
    congrArg State.buf0 ht, congrArg State.buf1 ht, congrArg State.buf2 ht, congrArg State.tmoCnt ht,
    congrArg State.stim ht⟩

/-- Settles O49: the ticks before each byte leave the window open, so the fourth byte completes the frame. -/
theorem frameInsideItsWindow : Obligations.FrameInsideItsWindow := by
  intro s b0 b1 b2 b3 n1 n2 n3 rest hrun hcnt hreq hinside hstim F ev
  have hleft1 := toNat_sub_ticks (n := n1) (w := s.tmoReload) (by omega)
  have hleft2 := toNat_sub_ticks (n := n2) (w := s.tmoReload - BitVec.ofNat 8 n1) (by omega)
  have h1 := runsTo_first_byte hrun hcnt hstim
  have h2 := h1.trans (runsTo_ticks_byte hrun (by omega) (by simp) (by simp) b1 _)
  have h3 := h2.trans (runsTo_ticks_byte hrun (by omega) (by simp) (by simp) b2 _)
  have hticks := h3.trans (runsTo_ticks hrun (by omega) [b0, b1, b2] _)
  obtain ⟨t, hcycles, ht⟩ := hticks.trans (runsTo_fourth_byte hrun hreq b0 b1 b2 b3 _ rest)
  have hcount : 1 + (n1 + 1) + (n2 + 1) + n3 + 1 = 4 + n1 + n2 + n3 := by omega
  rw [hcount] at hcycles
  exact ⟨t, hcycles, congrArg State.trace ht, (congrArg State.run ht).trans hrun, congrArg State.cnt ht,
    congrArg State.tmoCnt ht, (congrArg State.config ht :), congrArg State.stim ht⟩

/-- Settles O50: a state with an empty buffer and a full window is a fresh read, and each window gives it one TIMEOUT. -/
theorem idleStreamTimesOutForever : Obligations.IdleStreamTimesOutForever := by
  intro s m rest hrun hcnt hreq hbuf0 hbuf1 hbuf2 htmo hpos hstim
  have hfresh : (s.nextRead [] (Script.ticks (m * s.tmoReload.toNat) ++ rest)).lasting = s.lasting := by
    simp [State.nextRead, State.lasting, State.emitAll, State.clearBuf, State.reload, ← hstim, hcnt, hbuf0, hbuf1,
      hbuf2, htmo]
  obtain ⟨t, hcycles, ht⟩ := (runsTo_idle_windows hrun hreq hpos m [] rest).congr_start hfresh
  have harch : (s.nextRead (List.replicate m .timeout) rest).arch = s.arch := by
    simp [State.nextRead, State.arch, State.emitAll, hcnt, hbuf0, hbuf1, hbuf2, htmo]
  exact ⟨t, hcycles, congrArg State.trace ht, (congrArg State.arch ht).trans harch, congrArg State.stim ht⟩

end Sys2Proof.Machine

/-! The unpacker (41_unpack.md R150 to R165): each slice by the source's shift and mask, `decode` against `packZ` and
`packK`, and the event ports of a cycle. -/

namespace Sys2Proof

/-! ## Slices by shift and mask (41_unpack.md R150 to R156) -/

/-- A field is the source's `(w >> p) & (2^k - 1)`. -/
theorem extractLsb'_eq_shift_mask {n : Nat} (w : BitVec n) (p k : Nat) :
    w.extractLsb' p k = BitVec.ofNat k ((w.toNat >>> p) &&& (2 ^ k - 1)) := by
  apply BitVec.eq_of_toNat_eq
  rw [Nat.and_two_pow_sub_one_eq_mod, BitVec.extractLsb'_toNat, BitVec.toNat_ofNat, Nat.mod_mod]

theorem frameW0_toNat (F : Frame) : (frameW0 F).toNat = F.toNat >>> 16 := by
  rw [frameW0_eq, BitVec.extractLsb'_toNat, Nat.shiftRight_eq_div_pow]
  exact Nat.mod_eq_of_lt (Nat.div_lt_of_lt_mul F.isLt)

theorem frameW1_toNat (F : Frame) : (frameW1 F).toNat = F.toNat % 2 ^ 16 := by
  rw [frameW1_eq, BitVec.extractLsb'_toNat, Nat.shiftRight_zero]

section

variable (F : Frame)

theorem frameType_formula : frameType F = BitVec.ofNat 1 (((F.toNat >>> 16) >>> 12) &&& 1) := by
  rw [← frameW0_toNat]; exact extractLsb'_eq_shift_mask ..

theorem frameCode_formula : frameCode F = BitVec.ofNat 2 (((F.toNat >>> 16) >>> 10) &&& 0b11) := by
  rw [← frameW0_toNat]; exact extractLsb'_eq_shift_mask ..

theorem frameZone_formula : frameZone F = BitVec.ofNat 5 (((F.toNat >>> 16) >>> 4) &&& 0b11111) := by
  rw [← frameW0_toNat]; exact extractLsb'_eq_shift_mask ..

theorem frameHours_formula : frameHours F = BitVec.ofNat 5 (((F.toNat % 2 ^ 16) >>> 11) &&& 0b11111) := by
  rw [← frameW1_toNat]; exact extractLsb'_eq_shift_mask ..

theorem frameMinutes_formula : frameMinutes F = BitVec.ofNat 6 (((F.toNat % 2 ^ 16) >>> 4) &&& 0b111111) := by
  rw [← frameW1_toNat]; exact extractLsb'_eq_shift_mask ..

theorem frameByte0_formula : frameByte0 F = BitVec.ofNat 8 ((F.toNat >>> 16) / 256) := by
  rw [frameByte0, BitVec.extractLsb', Nat.shiftRight_add F.toNat 16 8, Nat.shiftRight_eq_div_pow _ 8]

theorem frameByte1_formula : frameByte1 F = BitVec.ofNat 8 ((F.toNat >>> 16) % 256) := by
  apply BitVec.eq_of_toNat_eq
  rw [frameByte1, BitVec.extractLsb'_toNat, BitVec.toNat_ofNat, Nat.mod_mod]

end

/-- Concatenation as arithmetic: the more significant part counts `2^b` times. -/
theorem bitcat_toNat {a b n : Nat} (hi : BitVec a) (lo : BitVec b) (hn : a + b = n) :
    (bitcat hi lo : BitVec n).toNat = 2 ^ b * hi.toNat + lo.toNat := by
  subst hn
  have happend : (bitcat hi lo : BitVec (a + b)) = hi ++ lo := by
    apply BitVec.eq_of_getLsbD_eq
    intro i hlt
    rw [bitcat_getLsbD, BitVec.getLsbD_append, decide_eq_true hlt, Bool.true_and]
  rw [happend, BitVec.toNat_append, ← Nat.shiftLeft_add_eq_or_of_lt lo.isLt, Nat.shiftLeft_eq, Nat.mul_comm]

/-- The key of two code bytes, `256 * codeHigh + codeLow` (41_unpack.md R157). -/
theorem eventKey_formula (a b : Byte) : eventKey a b = BitVec.ofNat 16 (256 * a.toNat + b.toNat) := by
  apply BitVec.eq_of_toNat_eq
  rw [eventKey, be16, bitcat_toNat a b rfl, BitVec.toNat_ofNat]
  omega

/-! ## Fields at their places (41_unpack.md R163) -/

/-- A word with everything but one field cleared is that field at its place. -/
theorem slice_shiftLeft_eq_and (w : Half) (p k : Nat) :
    (slice w p k).setWidth 16 <<< p = w &&& (BitVec.allOnes k).setWidth 16 <<< p := by
  apply BitVec.eq_of_getLsbD_eq
  intro i hi
  by_cases hlow : i < p
  · simp [hlow]
  · simp [slice, hlow, hi, show p + (i - p) = i by omega, Bool.and_comm]

theorem slice_or (v w : Half) (p k : Nat) : slice (v ||| w) p k = slice v p k ||| slice w p k :=
  BitVec.extractLsb'_or

/-- A field read where it stands. -/
theorem slice_shiftLeft_same {k : Nat} (x : BitVec k) (p : Nat) (hfit : p + k ≤ 16) :
    slice (x.setWidth 16 <<< p) p k = x := by
  apply BitVec.eq_of_getLsbD_eq
  intro i hi
  simp [slice, hi, show p + i < 16 by omega]

/-- A field read where another one stands. -/
theorem slice_shiftLeft_other {j : Nat} (x : BitVec j) (q p k : Nat) (hapart : p + k ≤ q ∨ q + j ≤ p) :
    slice (x.setWidth 16 <<< q) p k = 0 := by
  apply BitVec.eq_of_getLsbD_eq
  intro i hi
  rcases hapart with hbelow | habove
  · simp [slice, show p + i < q by omega]
  · simp [slice, BitVec.getLsbD_of_ge x (p + i - q) (by omega)]

@[simp] theorem frameW0_bitcat (w0 w1 : Half) : frameW0 (bitcat w0 w1) = w0 := by
  rw [frameW0_eq, bitcat_high w0 w1 (by decide)]

@[simp] theorem frameW1_bitcat (w0 w1 : Half) : frameW1 (bitcat w0 w1) = w1 := by
  rw [frameW1_eq, bitcat_low w0 w1 (by decide)]

/-- A frame is its two words. -/
theorem bitcat_frameWords (F : Frame) : bitcat (frameW0 F) (frameW1 F) = F := frameOf_eta F

/-- The code bytes are those that the first word is made of. -/
theorem codeBytes_of_frameW0 {F : Frame} {a b : Byte} (h : frameW0 F = be16 a b) :
    frameByte0 F = a ∧ frameByte1 F = b :=
  (bitcat_inj (by decide)).mp h

end Sys2Proof

namespace Sys2Proof.Machine

/-! ## The slices as operations -/

/-- Settles O9: under the bitfield layout each slice drives its field, which is the source's formula. -/
theorem zoneSlicesExtract : Obligations.ZoneSlicesExtract := by
  intro s F hlayout
  refine ⟨?_, ?_, ?_⟩
  · rw [exec_unpType, if_pos hlayout, frameType_formula, State.drive]
  · rw [exec_unpCode, if_pos hlayout, frameCode_formula, State.drive]
  · rw [exec_unpZone, if_pos hlayout, frameZone_formula, State.drive]

/-- Settles O10: the two slices do not read the layout. -/
theorem timeSlicesExtract : Obligations.TimeSlicesExtract := by
  intro s F
  refine ⟨?_, ?_⟩
  · rw [exec_unpHours, frameHours_formula, State.drive]
  · rw [exec_unpMinutes, frameMinutes_formula, State.drive]

/-- Settles O11: the key by arithmetic on the two code bytes, which are the decoded event's. -/
theorem keySliceExtracts : Obligations.KeySliceExtracts := by
  refine ⟨fun s F hlayout => ?_, fun F => ⟨frameHours F, frameMinutes F, rfl⟩⟩
  rw [exec_unpKey, if_pos hlayout, eventKey_formula, State.drive, frameByte0, frameByte1]

/-- Settles O12: a slice tests for its own layout, and the other one fails the test. -/
theorem slicesDriveZeroUnderOtherLayout : Obligations.SlicesDriveZeroUnderOtherLayout := by
  intro s F
  refine ⟨fun hlayout => ⟨?_, ?_, ?_⟩, fun hlayout => ?_⟩
  · rw [exec_unpType, if_neg (by simp [hlayout]), State.drive]
  · rw [exec_unpCode, if_neg (by simp [hlayout]), State.drive]
  · rw [exec_unpZone, if_neg (by simp [hlayout]), State.drive]
  · rw [exec_unpKey, if_neg (by simp [hlayout]), State.drive]

/-! ## `decode` and its inverse -/

/-- Settles O13: each constructor's fields are slices, and each slice is the source's formula. -/
theorem decodeFollowsFormulas : Obligations.DecodeFollowsFormulas := by
  intro F w0 w1 hours minutes
  refine ⟨?_, ?_⟩
  · rw [decodeEvent, frameType_formula, frameCode_formula, frameZone_formula, frameHours_formula, frameMinutes_formula]
  · rw [decodeEvent, frameByte0_formula, frameByte1_formula, frameHours_formula, frameMinutes_formula]

theorem decodeEvent_layout (l : Layout) (F : Frame) : (decodeEvent l F).layout = l := by
  cases l <;> rfl

/-- The second word that `packZ` and `packK` write, with the hours and minutes of a frame. -/
theorem pack_frameTime (F : Frame) :
    (frameHours F).setWidth 16 <<< 11 ||| (frameMinutes F).setWidth 16 <<< 4 = frameW1 F &&& 0xFBF0 := by
  rw [frameHours, frameMinutes, slice_shiftLeft_eq_and, slice_shiftLeft_eq_and, ← BitVec.and_or_distrib_left]
  rfl

/-- The first word that `packZ` writes, with the fields of a frame. -/
theorem pack_frameZone (F : Frame) :
    (frameType F).setWidth 16 <<< 12 ||| (frameCode F).setWidth 16 <<< 10 ||| (frameZone F).setWidth 16 <<< 4 =
      frameW0 F &&& 0x1DF0 := by
  rw [frameType, frameCode, frameZone, slice_shiftLeft_eq_and, slice_shiftLeft_eq_and, slice_shiftLeft_eq_and,
    ← BitVec.and_or_distrib_left, ← BitVec.and_or_distrib_left]
  rfl

/-- Packing what was decoded clears the unused bits of the layout and nothing else. -/
theorem packEvent_decodeEvent (l : Layout) (F : Frame) : packEvent (decodeEvent l F) = F &&& fieldMask l := by
  cases l with
  | bitfield =>
    calc packEvent (decodeEvent .bitfield F)
        = bitcat (frameW0 F &&& 0x1DF0) (frameW1 F &&& 0xFBF0) := by
          rw [← pack_frameZone, ← pack_frameTime]; rfl
      _ = F &&& bitcat (0x1DF0 : Half) (0xFBF0 : Half) := by rw [← bitcat_and, bitcat_frameWords]
      _ = F &&& fieldMask .bitfield := rfl
  | codeBytes =>
    calc packEvent (decodeEvent .codeBytes F)
        = bitcat (frameW0 F &&& BitVec.allOnes 16) (frameW1 F &&& 0xFBF0) := by
          rw [BitVec.and_allOnes, ← pack_frameTime]; rfl
      _ = F &&& bitcat (BitVec.allOnes 16) (0xFBF0 : Half) := by rw [← bitcat_and, bitcat_frameWords]
      _ = F &&& fieldMask .codeBytes := rfl

/-- Hours and minutes stand apart in the second word. -/
theorem slices_of_timeWord (h : BitVec 5) (m : BitVec 6) :
    slice (h.setWidth 16 <<< 11 ||| m.setWidth 16 <<< 4) 11 5 = h ∧
    slice (h.setWidth 16 <<< 11 ||| m.setWidth 16 <<< 4) 4 6 = m := by
  simp [slice_or, slice_shiftLeft_same, slice_shiftLeft_other]

/-- The type bit, the event code and the zone stand apart in the first word. -/
theorem slices_of_zoneWord (t : BitVec 1) (e : BitVec 2) (z : BitVec 5) :
    slice (t.setWidth 16 <<< 12 ||| e.setWidth 16 <<< 10 ||| z.setWidth 16 <<< 4) 12 1 = t ∧
    slice (t.setWidth 16 <<< 12 ||| e.setWidth 16 <<< 10 ||| z.setWidth 16 <<< 4) 10 2 = e ∧
    slice (t.setWidth 16 <<< 12 ||| e.setWidth 16 <<< 10 ||| z.setWidth 16 <<< 4) 4 5 = z := by
  simp [slice_or, slice_shiftLeft_same, slice_shiftLeft_other]

/-- Decoding what was packed, under the layout of its constructor, gives every field back. -/
theorem decodeEvent_packEvent (ev : DecodedEvent) : decodeEvent ev.layout (packEvent ev) = ev := by
  cases ev with
  | zone t e z h m =>
    obtain ⟨ht, he, hz⟩ := slices_of_zoneWord t e z
    obtain ⟨hh, hm⟩ := slices_of_timeWord h m
    simp only [DecodedEvent.layout, decodeEvent, packEvent, packZ, frameType, frameCode, frameZone, frameHours,
      frameMinutes, frameW0_bitcat, frameW1_bitcat, ht, he, hz, hh, hm]
  | key a b h m =>
    obtain ⟨ha, hb⟩ := codeBytes_of_frameW0 (F := packK a b h m) (frameW0_bitcat ..)
    obtain ⟨hh, hm⟩ := slices_of_timeWord h m
    simp only [DecodedEvent.layout, decodeEvent, packEvent, ha, hb]
    simp only [packK, frameHours, frameMinutes, frameW1_bitcat, hh, hm]

/-- Settles O15: packing is the right inverse of `decode`, and its left inverse up to the unused bits. -/
theorem packAndDecodeInvert : Obligations.PackAndDecodeInvert :=
  ⟨fun t e z h m => decodeEvent_packEvent (.zone t e z h m), fun a b h m => decodeEvent_packEvent (.key a b h m),
    packEvent_decodeEvent .bitfield, packEvent_decodeEvent .codeBytes⟩

/-- `decode` does not read the unused bits of its layout (41_unpack.md R164). -/
theorem decodeEvent_and_fieldMask (l : Layout) (F : Frame) : decodeEvent l (F &&& fieldMask l) = decodeEvent l F := by
  have hround := decodeEvent_packEvent (decodeEvent l F)
  rwa [decodeEvent_layout, packEvent_decodeEvent] at hround

theorem decodeEvent_eq_iff (l : Layout) (F G : Frame) :
    decodeEvent l F = decodeEvent l G ↔ F &&& fieldMask l = G &&& fieldMask l := by
  constructor
  · intro hdecode
    rw [← packEvent_decodeEvent, hdecode, packEvent_decodeEvent]
  · intro hmask
    rw [← decodeEvent_and_fieldMask, hmask, decodeEvent_and_fieldMask]

/-- Settles O14: packing a decoded event gives the masked frame, and the masked frame decodes alike. -/
theorem decodeSeesFieldBitsOnly : Obligations.DecodeSeesFieldBitsOnly := fun F G =>
  ⟨decodeEvent_eq_iff .bitfield F G, decodeEvent_eq_iff .codeBytes F G⟩

/-! ## The event ports of a cycle (10_state.md R45, 41_unpack.md R165) -/

/-- `RAW` and `DECODED`, the events that carry a frame. -/
def OutEvent.carriesFrame : OutEvent → Bool
  | .raw _ => true
  | .decoded _ => true
  | _ => false

@[simp] theorem OutEvent.carriesFrame_raw (F : Frame) : (raw F).carriesFrame = true := rfl
@[simp] theorem OutEvent.carriesFrame_decoded (ev : DecodedEvent) : (decoded ev).carriesFrame = true := rfl
@[simp] theorem OutEvent.carriesFrame_intent (i : Intent) : (intent i).carriesFrame = false := rfl
@[simp] theorem OutEvent.carriesFrame_timeout : timeout.carriesFrame = false := rfl
@[simp] theorem OutEvent.carriesFrame_fatal (c : BitVec 2) : (fatal c).carriesFrame = false := rfl
@[simp] theorem OutEvent.carriesFrame_partialFrame (n : BitVec 2) (b0 b1 b2 : Byte) :
    (partialFrame n b0 b1 b2).carriesFrame = false := rfl

/-- What the event ports are read off: the cycle's `RAW` and `DECODED` events, and the unpacker's data ports. -/
def State.frameView (s : State) : List OutEvent × EventPorts := (s.out.filter OutEvent.carriesFrame, s.unp)

theorem rawIn_filter (es : List OutEvent) : rawIn (es.filter OutEvent.carriesFrame) = rawIn es := by
  induction es with
  | nil => rfl
  | cons e es ih => cases e <;> simp [List.filter_cons, rawIn, ih]

theorem decodedIn_filter (es : List OutEvent) : decodedIn (es.filter OutEvent.carriesFrame) = decodedIn es := by
  induction es with
  | nil => rfl
  | cons e es ih => cases e <;> simp [List.filter_cons, decodedIn, ih]

section

variable (s : State)

theorem State.rawIn_out : rawIn s.out = rawIn s.frameView.1 := (rawIn_filter s.out).symm

theorem State.decodedIn_out : decodedIn s.out = decodedIn s.frameView.1 := (decodedIn_filter s.out).symm

theorem State.decoded_mem_out (ev : DecodedEvent) : .decoded ev ∈ s.out ↔ .decoded ev ∈ s.frameView.1 := by
  simp [State.frameView]

theorem State.unp_eq_frameView : s.unp = s.frameView.2 := rfl

end

/-! ### What each phase does to it -/

theorem State.emitAll_frameView (es : List OutEvent) (s : State) :
    (s.emitAll es).frameView = (s.frameView.1 ++ es.filter OutEvent.carriesFrame, s.frameView.2) := by
  simp [State.frameView, State.emitAll]

theorem State.epilogue_frameView (s : State) : s.epilogue.frameView = s.frameView := by
  rw [State.epilogue_eq]; rfl

theorem sourceClosed_frameView (s : State) : s.sourceClosed.frameView = s.frameView := by
  rcases s.sourceClosed_cases with ⟨_, heq⟩ | ⟨_, heq⟩ <;> rw [heq]
  by_cases hcnt : s.cnt = 0#2 <;> simp [State.frameView, State.emitAll, hcnt]

theorem timebaseTick_frameView (s : State) : s.timebaseTick.frameView = s.frameView := by
  rcases s.timebaseTick_cases with ⟨_, heq⟩ | ⟨_, _, heq⟩ | ⟨_, _, heq⟩ <;> rw [heq]
  · rfl
  · rw [State.epilogue_frameView, State.emitAll_frameView]
    by_cases hcnt : s.cnt = 0#2 <;> simp [hcnt]

theorem regWrite_frameView (a : Addr) (v : Word32) (s : State) : (s.regWrite a v).frameView = s.frameView := by
  rcases s.regWrite_cases a v with ⟨_, heq⟩ | ⟨_, _, heq⟩ | ⟨_, _, _, heq⟩ | ⟨_, f, hf, heq⟩ <;> rw [heq]
  · rcases s.stopRun_cases with ⟨_, hstop⟩ | ⟨_, hstop⟩ | ⟨_, hstop⟩ <;> rw [hstop] <;> rfl
  · rcases s.startRun_cases with ⟨_, hstart⟩ | ⟨_, hstart⟩ <;> rw [hstart]
    rfl
  · rcases s.whileStarting_cases f with ⟨_, hw⟩ | ⟨_, hw⟩ <;> rw [hw]
    cases hf <;> rfl

theorem frameEvents_filter (F : Frame) (ev : DecodedEvent) (i : Option Intent) :
    (frameEvents F ev i).filter OutEvent.carriesFrame = [.raw F, .decoded ev] := by
  cases i <;> simp [frameEvents, List.filter_cons]

theorem processFrame_frameView (F : Frame) {s : State} (hidle : s.frameView = ([], .idle)) :
    (s.processFrame F).frameView = ([.raw F, .decoded (decodeEvent s.layout F)], (decodeEvent s.layout F).ports) := by
  obtain ⟨hnone, -⟩ := Prod.mk.inj hidle
  rw [State.processFrame_eq, State.emitAll_frameView, frameEvents_filter]
  simp [State.frameView, hnone]

/-- So far in the cycle: no frame and idle ports, or one frame's two events and its decoded event on the ports. -/
def State.EventsOnPorts (s : State) : Prop :=
  s.frameView = ([], .idle) ∨ ∃ F ev, s.frameView = ([.raw F, .decoded ev], ev.ports)

theorem State.EventsOnPorts.congr {s t : State} (hs : s.EventsOnPorts) (h : t.frameView = s.frameView) :
    t.EventsOnPorts := by
  rwa [State.EventsOnPorts, h]

/-- The one byte of a cycle meets no frame before it, and completes at most one. -/
theorem acceptByte_eventsOnPorts (b : Byte) {s : State} (hidle : s.frameView = ([], .idle)) :
    (s.acceptByte b).EventsOnPorts := by
  rcases s.acceptByte_cases b with ⟨_, heq⟩ | ⟨_, hcnt, heq⟩ | ⟨_, _, heq⟩ <;> rw [heq]
  · exact .inl hidle
  · rw [State.storeByte_eq b s hcnt]
    exact .inl hidle
  · exact .inr ⟨_, _, (State.epilogue_frameView _).trans (processFrame_frameView _ hidle)⟩

/-- A cycle ends with its decoded event on the ports. -/
theorem cycleOf_eventsOnPorts (i : CycleInput) (s : State) : (cycleOf i s.beginCycle).EventsOnPorts := by
  cases hrst : i.rst with
  | true => rw [cycleOf_of_reset hrst]; exact .inl rfl
  | false =>
    have hread : (phaseRead i.hostRd s.beginCycle).frameView = ([], .idle) := by cases i.hostRd <;> rfl
    have hbyte : (phaseByte i.byte (phaseRead i.hostRd s.beginCycle)).EventsOnPorts := by
      cases i.byte with
      | none => exact .inl hread
      | some b => exact acceptByte_eventsOnPorts b hread
    have hclose : (phaseClose i.closed (phaseByte i.byte (phaseRead i.hostRd s.beginCycle))).EventsOnPorts := by
      cases i.closed with
      | false => exact hbyte
      | true => exact hbyte.congr (sourceClosed_frameView _)
    have htick : (beforeHost i s.beginCycle).EventsOnPorts := by
      unfold beforeHost
      cases i.tick with
      | false => exact hclose
      | true => exact hclose.congr (timebaseTick_frameView _)
    rw [cycleOf_of_no_reset hrst]
    exact phaseHost_keeps _ (fun a v => htick.congr (regWrite_frameView a v _)) htick

/-- Settles O47: at the end of a cycle the ports are idle, or carry the one decoded event of its one frame. -/
theorem eventPortsCarryDecodedEvent : Obligations.EventPortsCarryDecodedEvent := by
  intro s t hstep
  have hends : t.EventsOnPorts := eq_cycleOf_of_step hstep ▸ cycleOf_eventsOnPorts _ s
  rcases hends with hview | ⟨F, ev, hview⟩
  · have hraw : rawIn t.out = none := by rw [State.rawIn_out, hview]; rfl
    have hdecoded : decodedIn t.out = none := by rw [State.decodedIn_out, hview]; rfl
    have hunp : t.unp = .idle := by rw [State.unp_eq_frameView, hview]
    refine ⟨fun ev hev => ?_, fun _ => ⟨?_, hunp⟩, ?_⟩
    · simp [State.decoded_mem_out, hview] at hev
    · simp [State.ports, hdecoded]
    · simp [State.ports, hdecoded, hraw]
  · have hraw : rawIn t.out = some F := by rw [State.rawIn_out, hview]; rfl
    have hdecoded : decodedIn t.out = some ev := by rw [State.decodedIn_out, hview]; rfl
    have hunp : t.unp = ev.ports := by rw [State.unp_eq_frameView, hview]
    refine ⟨fun ev' hev => ?_, fun hnone => ?_, ?_⟩
    · obtain rfl : ev' = ev := by simpa [State.decoded_mem_out, hview] using hev
      exact ⟨by simp [State.ports, hdecoded], hunp⟩
    · exact absurd ((t.decoded_mem_out ev).mpr (by simp [hview])) (hnone ev)
    · simp [State.ports, hdecoded, hraw]

end Sys2Proof.Machine

/-! Dispatch and the CAM (42_dispatch_cam.md R175 to R189): the lookup as the library's index search, what dispatch
decides from the fields of an event, and the events of each frame class. -/

namespace Sys2Proof.Machine

/-! ## The CAM lookup (42_dispatch_cam.md R180) -/

theorem CamEntry.matchesKey_iff (e : CamEntry) (k : Half) : e.matchesKey k = true ↔ e.valid = true ∧ e.key = k := by
  rw [CamEntry.matchesKey, Bool.and_eq_true, beq_iff_eq]

/-- The priority encoder searches for the first matching entry and counts from the entry number it starts at. -/
theorem camLookupFrom_eq_findIdx? (k : Half) (cam : List CamEntry) (n : Nat) :
    camLookupFrom k cam n =
      (cam.findIdx? fun e => e.matchesKey k).bind fun i => cam[i]?.map fun e => (n + i, e) := by
  induction cam generalizing n with
  | nil => rfl
  | cons d cam ih =>
    rw [camLookupFrom, List.findIdx?_cons]
    split
    · rfl
    · rw [ih, Option.bind_map]
      simp only [Function.comp_def, List.getElem?_cons_succ, Nat.add_assoc, Nat.add_comm 1]

theorem camLookup_eq_findIdx? (cam : List CamEntry) (k : Half) :
    camLookup cam k = (cam.findIdx? fun e => e.matchesKey k).bind fun i => cam[i]?.map fun e => (i, e) := by
  rw [camLookup, camLookupFrom_eq_findIdx?]
  simp only [Nat.zero_add]

/-- The search answers the index of an entry that is there. -/
theorem camLookup_eq_some_iff_findIdx? {cam : List CamEntry} {k : Half} {i : Nat} {e : CamEntry} :
    camLookup cam k = some (i, e) ↔ (cam.findIdx? fun d => d.matchesKey k) = some i ∧ cam[i]? = some e := by
  simp [camLookup_eq_findIdx?, Option.bind_eq_some_iff]

theorem camLookup_eq_some_iff {cam : List CamEntry} {k : Half} {i : Nat} {e : CamEntry} :
    camLookup cam k = some (i, e) ↔
      cam[i]? = some e ∧ e.valid = true ∧ e.key = k ∧
        ∀ (j : Nat) (d : CamEntry), j < i → cam[j]? = some d → ¬ (d.valid = true ∧ d.key = k) := by
  rw [camLookup_eq_some_iff_findIdx?, and_comm]
  refine and_congr_right fun hget => ?_
  obtain ⟨hi, rfl⟩ := List.getElem?_eq_some_iff.1 hget
  simp only [List.findIdx?_eq_some_iff_getElem, ← and_assoc, ← CamEntry.matchesKey_iff]
  constructor
  · rintro ⟨_, hmatch, hleast⟩
    refine ⟨hmatch, fun j d hj hd => ?_⟩
    obtain ⟨_, rfl⟩ := List.getElem?_eq_some_iff.1 hd
    exact hleast j hj
  · rintro ⟨hmatch, hleast⟩
    exact ⟨hi, hmatch, fun j hj => hleast j _ hj (List.getElem?_eq_getElem _)⟩

theorem camLookup_eq_none_iff {cam : List CamEntry} {k : Half} :
    camLookup cam k = none ↔ ∀ e ∈ cam, ¬ (e.valid = true ∧ e.key = k) := by
  simp only [← CamEntry.matchesKey_iff, Bool.not_eq_true, ← List.findIdx?_eq_none_iff]
  cases hfind : cam.findIdx? fun e => e.matchesKey k with
  | none => simp [camLookup_eq_findIdx?, hfind]
  | some i =>
    obtain ⟨hi, _⟩ := List.findIdx?_eq_some_iff_getElem.1 hfind
    simp [camLookup_eq_findIdx?, hfind, hi]

/-- Settles O21: the lookup's two answers, each by what it says of the entries. -/
theorem lookupIsLeastMatch : Obligations.LookupIsLeastMatch := fun _ _ =>
  ⟨fun _ _ => camLookup_eq_some_iff, camLookup_eq_none_iff⟩

/-! ## What dispatch decides (42_dispatch_cam.md R175, R177, R187, R189) -/

theorem zoneEventValid_iff (t : BitVec 1) (e : BitVec 2) (z : BitVec 5) :
    zoneEventValid t e z = true ↔ t = 0 ∧ e.toNat ≤ 1 ∧ 1 ≤ z.toNat ∧ z.toNat ≤ 8 := by
  rw [zoneEventValid, Bool.and_eq_true, Bool.and_eq_true, beq_iff_eq, decide_eq_true_iff, zoneValid_iff, and_assoc]

theorem dispatchEvent_zone (cam : List CamEntry) (t : BitVec 1) (e : BitVec 2) (z h : BitVec 5) (m : BitVec 6) :
    dispatchEvent cam (.zone t e z h m) =
      if zoneEventValid t e z then some (zoneIntent z (e.setWidth 16)) else none := rfl

theorem dispatchEvent_key (cam : List CamEntry) (a b : Byte) (h : BitVec 5) (m : BitVec 6) :
    dispatchEvent cam (.key a b h m) = (camLookup cam (eventKey a b)).map tableIntent := rfl

/-- `chan = zext_16(zone)` as a number (42_dispatch_cam.md R176). -/
theorem zoneIntent_eq (z : BitVec 5) (payl : Half) :
    zoneIntent z payl = ⟨.static, BitVec.ofNat 16 z.toNat, payl, 0⟩ := by
  rw [zoneIntent, BitVec.ofNat_toNat]

/-- Settles O23: the zone predicate by its numbers, and the lookup as an index search. -/
theorem dispatchDecides : Obligations.DispatchDecides := by
  intro cam
  refine ⟨fun t e z h m => ?_, fun a b h m => ?_⟩
  · simp only [dispatchEvent_zone, zoneEventValid_iff, zoneIntent_eq, BitVec.ofNat_toNat]
  · rw [dispatchEvent_key, eventKey_formula, camLookup_eq_findIdx?, Option.map_bind]
    simp only [Function.comp_def, Option.map_map, tableIntent, CamEntry.matchesKey]

/-- A bitfield frame is dispatched by the fields of its first word; no CAM is read. -/
theorem dispatchEvent_bitfield (cam : List CamEntry) (F : Frame) :
    dispatchEvent cam (decodeEvent .bitfield F) =
      if zoneEventValid (slice (frameW0 F) 12 1) (slice (frameW0 F) 10 2) (slice (frameW0 F) 4 5) then
        some (zoneIntent (slice (frameW0 F) 4 5) ((slice (frameW0 F) 10 2).setWidth 16))
      else none := rfl

/-- A code-bytes frame is looked up by its first word. -/
theorem dispatchEvent_codeBytes (cam : List CamEntry) (F : Frame) :
    dispatchEvent cam (decodeEvent .codeBytes F) = (camLookup cam (frameW0 F)).map tableIntent := rfl

/-- Settles O24: under each layout dispatch reads the first word, which holds neither hours nor minutes. -/
theorem dispatchIgnoresTime : Obligations.DispatchIgnoresTime := by
  refine ⟨fun l cam F G hupper => ?_, fun cam cam' F => ?_⟩
  · have hw0 : frameW0 F = frameW0 G := by rw [frameW0_eq, frameW0_eq, hupper]
    cases l with
    | bitfield => rw [dispatchEvent_bitfield, dispatchEvent_bitfield, hw0]
    | codeBytes => rw [dispatchEvent_codeBytes, dispatchEvent_codeBytes, hw0]
  · rw [dispatchEvent_bitfield, dispatchEvent_bitfield]

/-! ## The events of the frame classes (42_dispatch_cam.md R178 to R183) -/

/-- The decoded event of a bitfield frame by the places of its fields (30_encoding.md R91). -/
theorem decodeEvent_bitfield_fields (F : Frame) :
    decodeEvent .bitfield F = .zone (F.extractLsb' 28 1) (F.extractLsb' 26 2) (F.extractLsb' 20 5)
      (F.extractLsb' 11 5) (F.extractLsb' 4 6) := by
  rw [decodeEvent, frameType_eq, frameCode_eq, frameZone_eq, frameHours_eq, frameMinutes_eq]

/-- The decoded event of a code-bytes frame by the places of its fields (30_encoding.md R92). -/
theorem decodeEvent_codeBytes_fields (F : Frame) :
    decodeEvent .codeBytes F =
      .key (F.extractLsb' 24 8) (F.extractLsb' 16 8) (F.extractLsb' 11 5) (F.extractLsb' 4 6) := by
  rw [decodeEvent, frameByte0, frameByte1, frameHours_eq, frameMinutes_eq]

/-- A frame under the class mask of 30_encoding.md R96 tells its type bit and event code. -/
theorem typeCode_of_classMask {F : Frame} {t : BitVec 1} {e : BitVec 2}
    (hrow : F &&& (0x1C000000 : Frame) = (bitcat t e : BitVec 3).setWidth 32 <<< 26) :
    F.extractLsb' 28 1 = t ∧ F.extractLsb' 26 2 = e := by
  have hmatch := rowMatches_typeCode F t e
  rw [rowMatches, hrow, beq_self_eq_true, eq_comm, Bool.and_eq_true, beq_iff_eq, beq_iff_eq] at hmatch
  rwa [← frameType_eq, ← frameCode_eq]

/-- The events of a frame under the class mask that publishes its zone with a payload. -/
theorem emitFrame_zoneIntent {F : Frame} {t : BitVec 1} {e : BitVec 2}
    (hrow : F &&& (0x1C000000 : Frame) = (bitcat t e : BitVec 3).setWidth 32 <<< 26) (payl : Half) (s : State) :
    s.emitFrame F (decodeEvent .bitfield F) (some (zoneIntent (frameZone F) payl)) =
      s.emitAll [.raw F,
        .decoded (.zone t e (F.extractLsb' 20 5) (F.extractLsb' 11 5) (F.extractLsb' 4 6)),
        .intent ⟨.static, BitVec.ofNat 16 (F.extractLsb' 20 5).toNat, payl, 0⟩] := by
  obtain ⟨htype, hcode⟩ := typeCode_of_classMask hrow
  rw [State.emitFrame_eq, decodeEvent_bitfield_fields, zoneIntent_eq, frameZone_eq, htype, hcode]
  rfl

/-- Settles O17: the class mask fixes the type bit and event code of the decoded event, the operation the payload.
The zone's range is the class's part (O16): the operation of the class publishes the zone it is given. -/
theorem zoneFramesPublish : Obligations.ZoneFramesPublish := by
  intro s F _ _ z h m
  refine ⟨fun hmask => ?_, fun hmask => ?_⟩
  · rw [exec_zclosed, emitFrame_zoneIntent (t := 0) (e := 0) hmask]
    rfl
  · rw [exec_zopen, emitFrame_zoneIntent (t := 0) (e := 1) hmask]
    rfl

/-- Settles O18: the four classes emit the frame's events without an intent, which is the state the statement names. -/
theorem droppedFramesGiveNoIntent : Obligations.DroppedFramesGiveNoIntent := by
  intro s F es t
  have hdrop : s.emitFrame F (decodeEvent .bitfield F) none = t := by
    rw [State.emitFrame_eq, decodeEvent_bitfield_fields]
    rfl
  refine ⟨fun _ => ?_, fun _ => ?_, fun _ => ?_, fun _ _ => ?_⟩
  · rw [exec_zrsvEc2, hdrop]
  · rw [exec_zrsvEc3, hdrop]
  · rw [exec_zrsvT1, hdrop]
  · rw [exec_zdrop, hdrop]

/-- Settles O19: the entry named by the hypotheses is the lookup's answer. -/
theorem keyedEventHitPublishes : Obligations.KeyedEventHitPublishes := by
  intro s F i e hget hvalid hkey hleast es
  have hhit : camLookup s.cam (F.extractLsb' 16 16) = some (i, e) :=
    camLookup_eq_some_iff.2 ⟨hget, hvalid, hkey, fun j d hj hd => not_and.2 (hleast j d hj hd)⟩
  rw [exec_kevt, frameW0_eq, hhit, State.emitFrame_eq, decodeEvent_codeBytes_fields]
  rfl

/-- Settles O20: no valid entry with the key means that the lookup answers nothing. -/
theorem keyedEventMissIsSilent : Obligations.KeyedEventMissIsSilent := by
  intro s F hnone es
  have hmiss : camLookup s.cam (F.extractLsb' 16 16) = none :=
    camLookup_eq_none_iff.2 fun e he => not_and.2 (hnone e he)
  rw [exec_kevt, frameW0_eq, hmiss, State.emitFrame_eq, decodeEvent_codeBytes_fields]
  rfl

end Sys2Proof.Machine

/-! Fields of a register word as arithmetic (00_scope.md R8), for what the host writes and reads. -/

namespace Sys2Proof

/-- A field at its place above a value that leaves the place free. -/
theorem shiftLeft_or_ofNat {n k p m : Nat} (x : BitVec k) (hfit : k + p ≤ n) (hm : m < 2 ^ p) :
    x.setWidth n <<< p ||| BitVec.ofNat n m = BitVec.ofNat n (x.toNat * 2 ^ p + m) := by
  apply BitVec.eq_of_toNat_eq
  rw [← BitVec.ofNat_toNat, BitVec.toNat_or, BitVec.toNat_shiftLeft, BitVec.toNat_ofNat, BitVec.toNat_ofNat,
    BitVec.toNat_ofNat, ← Nat.shiftLeft_eq, Nat.shiftLeft_add_eq_or_of_lt hm, Nat.or_mod_two_pow,
    Nat.mod_eq_of_lt (x.isLt.trans_le (Nat.pow_le_pow_right Nat.two_pos (by omega)))]

/-- A concatenation in a wider place is its arithmetic value there. -/
theorem bitcat_eq_ofNat {a b n : Nat} (hi : BitVec a) (lo : BitVec b) (hfit : a + b ≤ n) :
    (bitcat hi lo : BitVec n) = BitVec.ofNat n (hi.toNat * 2 ^ b + lo.toNat) := by
  rw [bitcat, ← BitVec.ofNat_toNat n lo, shiftLeft_or_ofNat hi hfit lo.isLt]

theorem getLsbD_iff_div_mod {n : Nat} (w : BitVec n) (p : Nat) : w.getLsbD p = true ↔ w.toNat / 2 ^ p % 2 = 1 := by
  rw [BitVec.getLsbD, Nat.testBit_eq_decide_div_mod_eq, decide_eq_true_iff]

/-- The field `w[p+k-1:p]` as a number. -/
theorem extractLsb'_eq_div {n : Nat} (w : BitVec n) (p k : Nat) :
    w.extractLsb' p k = BitVec.ofNat k (w.toNat / 2 ^ p) := by
  rw [BitVec.extractLsb', Nat.shiftRight_eq_div_pow]

theorem extractLsb'_zero_eq_mod {n : Nat} (w : BitVec n) (k : Nat) :
    w.extractLsb' 0 k = BitVec.ofNat k (w.toNat % 2 ^ k) := by
  apply BitVec.eq_of_toNat_eq
  rw [BitVec.extractLsb'_toNat, BitVec.toNat_ofNat, Nat.shiftRight_zero, Nat.mod_mod]

/-- A flag at its place. -/
theorem ofBool_toNat_mul (b : Bool) (m : Nat) : (BitVec.ofBool b).toNat * m = if b = true then m else 0 := by
  cases b
  · exact Nat.zero_mul m
  · exact Nat.one_mul m

/-! ## WR_IGN (30_encoding.md R102) -/

/-- A CTRL write that is neither STOP nor START. -/
theorem mod_four_ne_zero_iff (v : Word32) : v.toNat % 4 ≠ 0 ↔ v.getLsbD 1 = true ∨ v.getLsbD 0 = true := by
  rw [getLsbD_iff_div_mod, getLsbD_iff_div_mod]
  omega

/-- The decoder reads a write as WR_IGN exactly where no other row takes it. -/
theorem decodeWrite_eq_wrIgn_iff (n : Nat) (a : Addr) (v : Word32) :
    decodeWrite n (hostWord true false a v) = some (.wrIgn a v) ↔ writeIgnored n a v = true :=
  ⟨decodeWrite_wellFormed, decodeWrite_ignored⟩

end Sys2Proof

/-! The host operations (43_control_host.md R201 to R219), and the steps that R200, R207 and R220 single out. -/

namespace Sys2Proof.Machine

/-! ## Commands and configuration writes -/

section

variable {s : State}

theorem whileStarting_of_starting (h : s.run = .starting) (f : State → State) : s.whileStarting f = f s := if_pos h

theorem whileStarting_of_ne_starting (h : s.run ≠ .starting) (f : State → State) : s.whileStarting f = s := if_neg h

end

/-- Settles O26: the command's two branches. -/
theorem startEntersRunning : Obligations.StartEntersRunning := by
  intro s
  refine ⟨fun h => ?_, fun h => ?_⟩
  · rw [exec_start, State.startRun, if_pos h]
  · rw [exec_start, State.startRun, if_neg h]

/-- Settles O27: the command's three branches. -/
theorem stopHaltsOrDefers : Obligations.StopHaltsOrDefers := by
  intro s
  refine ⟨fun h => ?_, fun h => ?_, fun h => ?_⟩
  all_goals rw [exec_stop, State.stopRun, h]

/-- `layout <- v[0]` (43_control_host.md R204). -/
theorem layoutOf_bit_zero (v : Word32) :
    layoutOf (v.getLsbD 0) = if v.toNat % 2 = 1 then .codeBytes else .bitfield := by
  simp only [layoutOf, getLsbD_iff_div_mod, Nat.pow_zero, Nat.div_one]

/-- The low byte of the written word is stored, 0 as 1 (43_control_host.md R205). -/
theorem legalReload_low_byte (v : Word32) :
    legalReload (v.extractLsb' 0 8) = if v.toNat % 256 = 0 then 1 else BitVec.ofNat 8 (v.toNat % 256) := by
  have hzero : BitVec.ofNat 8 (v.toNat % 256) = 0 ↔ v.toNat % 256 = 0 := by
    rw [← BitVec.toNat_inj, BitVec.toNat_ofNat]
    simp
  rw [legalReload, extractLsb'_zero_eq_mod]
  simp only [Nat.reducePow, hzero]

/-- Settles O28: behind the write lock each register takes its field of the word. -/
theorem configWritesStore : Obligations.ConfigWritesStore := by
  intro s v
  refine ⟨fun h => ⟨?_, ?_⟩, fun h => ⟨?_, ?_⟩⟩
  · rw [exec_wrCfg, whileStarting_of_starting h, State.setCfg, layoutOf_bit_zero]
  · rw [exec_wrTmo, whileStarting_of_starting h, State.setTmo, legalReload_low_byte]
  · rw [exec_wrCfg, whileStarting_of_ne_starting h]
  · rw [exec_wrTmo, whileStarting_of_ne_starting h]

theorem CamEntry.withKey_eq (v : Word32) (e : CamEntry) :
    e.withKey v = { e with valid := v.getLsbD 31, key := BitVec.ofNat 16 (v.toNat % 2 ^ 16) } := by
  rw [CamEntry.withKey, extractLsb'_zero_eq_mod]

theorem CamEntry.withData_eq (v : Word32) (e : CamEntry) :
    e.withData v =
      { e with chan := BitVec.ofNat 16 (v.toNat / 2 ^ 16), payl := BitVec.ofNat 16 (v.toNat % 2 ^ 16) } := by
  rw [CamEntry.withData, extractLsb'_zero_eq_mod, extractLsb'_eq_div]

/-- In STARTING a CAM write updates its entry and leaves every other entry and every other field. -/
theorem whileStarting_updateCam_spec {s : State} {i : CamIndex} {e : CamEntry} (hget : s.cam[i.toNat]? = some e)
    (h : s.run = .starting) (f : CamEntry → CamEntry) :
    ∃ cam : List CamEntry, s.whileStarting (State.updateCam i f) = { s with cam := cam } ∧
      cam[i.toNat]? = some (f e) ∧ ∀ j : Nat, j ≠ i.toNat → cam[j]? = s.cam[j]? := by
  refine ⟨s.cam.modify i.toNat f, ?_, ?_, fun j hj => ?_⟩
  · rw [whileStarting_of_starting h, State.updateCam]
  · rw [List.getElem?_modify_eq, hget]
    rfl
  · rw [List.getElem?_modify_ne _ _ hj.symm]

/-- Settles O29: each write is its entry's update behind the write lock. -/
theorem camWritesStore : Obligations.CamWritesStore := by
  intro s i v e hget
  refine ⟨fun h => ⟨?_, ?_⟩, fun h => ⟨?_, ?_⟩⟩
  · rw [exec_wrCamkey, ← CamEntry.withKey_eq]
    simp only [Host.Outcome.next.injEq]
    exact whileStarting_updateCam_spec hget h _
  · rw [exec_wrCamdata, ← CamEntry.withData_eq]
    simp only [Host.Outcome.next.injEq]
    exact whileStarting_updateCam_spec hget h _
  · rw [exec_wrCamkey, whileStarting_of_ne_starting h]
  · rw [exec_wrCamdata, whileStarting_of_ne_starting h]

/-- Settles O31: WR_IGN is the last row, so it takes what the rows before it leave. -/
theorem ignoredWritesDoNothing : Obligations.IgnoredWritesDoNothing := by
  refine ⟨fun s a v => exec_wrIgn s a v, fun n a v => ?_⟩
  rw [decodeWrite_eq_wrIgn_iff, writeIgnored_iff, camAddr_iff, mod_four_ne_zero_iff, and_or_left, not_or, and_assoc]

/-! ## Register reads -/

/-- `STATUS` with its four fields at their places (10_state.md R31). -/
theorem statusWord_eq (s : State) :
    statusWord s = BitVec.ofNat 32
      (s.tmoCnt.toNat * 256 + (if s.stopReq = true then 16 else 0) + s.cnt.toNat * 4 + s.run.code.toNat) := by
  have hrun := s.run.code.isLt
  have hcnt := s.cnt.isLt
  have hreq := (BitVec.ofBool s.stopReq).isLt
  have hstop : (BitVec.ofBool s.stopReq).toNat * 2 ^ 4 = if s.stopReq = true then 16 else 0 := ofBool_toNat_mul ..
  rw [statusWord, BitVec.or_assoc, BitVec.or_assoc, ← BitVec.ofNat_toNat 32 s.run.code,
    shiftLeft_or_ofNat s.cnt (by decide) (by omega), shiftLeft_or_ofNat _ (by decide) (by omega),
    shiftLeft_or_ofNat s.tmoCnt (by decide) (by omega), hstop]
  exact congrArg (BitVec.ofNat 32) (by omega)

theorem cfgWord_eq (s : State) : cfgWord s = if s.layout = .codeBytes then 1 else 0 := by
  rw [cfgWord]
  cases s.layout <;> rfl

theorem tmoWord_eq (s : State) : tmoWord s = BitVec.ofNat 32 s.tmoReload.toNat := (BitVec.ofNat_toNat ..).symm

/-- `BUF` with the first byte held most significant (10_state.md R34). -/
theorem bufWord_eq (s : State) :
    bufWord s = BitVec.ofNat 32 (s.buf0.toNat * 2 ^ 24 + s.buf1.toNat * 2 ^ 16 + s.buf2.toNat * 2 ^ 8) := by
  rw [bufWord, bitcat_eq_ofNat _ _ (by decide), be16, be16, bitcat_toNat _ _ rfl, bitcat_toNat _ _ rfl]
  have hzero : (0 : Byte).toNat = 0 := rfl
  exact congrArg (BitVec.ofNat 32) (by omega)

/-- Settles O33: each read returns its register's word, which is the value of its fields. -/
theorem stateReads : Obligations.StateReads := by
  intro s status cfg tmo buf
  have hstatus : statusWord s = status := by
    rw [statusWord_eq]
    unfold status
    cases s.run <;> rfl
  refine ⟨?_, ?_, ?_, ?_⟩
  · rw [exec_rdStatus, hstatus, State.hostReturn]
  · rw [exec_rdCfg, cfgWord_eq, State.hostReturn]
  · rw [exec_rdTmo, tmoWord_eq, State.hostReturn]
  · rw [exec_rdBuf, bufWord_eq, State.hostReturn]

/-- `ID`: a number of entries that its byte holds stands below `FRAME_LEN` (10_state.md R35). -/
theorem idWord_eq {s : State} (h : s.nRules ≤ 64) : idWord s = BitVec.ofNat 32 (0x400 + s.nRules) := by
  rw [idWord, bitcat_eq_ofNat _ _ (by decide), BitVec.toNat_ofNat, BitVec.toNat_ofNat, Nat.mod_eq_of_lt (a := s.nRules)]
  · rfl
  · omega

/-- Settles O32: each read returns its register's word. -/
theorem constantReads : Obligations.ConstantReads := by
  intro s a
  refine ⟨?_, fun h => ?_, ?_⟩
  · rw [exec_rdCtrl, ctrlWord, State.hostReturn]
  · rw [exec_rdId, idWord_eq h, State.hostReturn]
  · rw [exec_rdRsvd, reservedWord, State.hostReturn]

section

variable {s : State} {i : CamIndex} {e : CamEntry} (hget : s.cam[i.toNat]? = some e)
include hget

theorem camkeyWord_eq : camkeyWord s i = BitVec.ofNat 32 ((if e.valid = true then 2 ^ 31 else 0) + e.key.toNat) := by
  have hkey := e.key.isLt
  simp only [camkeyWord, hget]
  rw [← BitVec.ofNat_toNat 32 e.key, shiftLeft_or_ofNat _ (by decide) (by omega), ofBool_toNat_mul]

theorem camdataWord_eq : camdataWord s i = BitVec.ofNat 32 (e.chan.toNat * 2 ^ 16 + e.payl.toNat) := by
  simp only [camdataWord, hget]
  exact bitcat_eq_ofNat _ _ (by decide)

end

/-- Settles O34: each read returns its entry's word. -/
theorem camReads : Obligations.CamReads := by
  intro s i e hget k d
  refine ⟨?_, ?_⟩
  · rw [exec_rdCamkey, camkeyWord_eq hget, State.hostReturn]
  · rw [exec_rdCamdata, camdataWord_eq hget, State.hostReturn]

/-! ## Steps -/

/-- Settles O39: the step is the cycle on the ports of its stimulus, begun with the cycle's ports idle. -/
theorem stepIsPhasesInOrder : Obligations.StepIsPhasesInOrder := step_eq_cycleOf

theorem nextStimulus_of_stim {s : State} {x : Stimulus} {rest : List Stimulus} (h : s.stim = x :: rest) :
    s.nextStimulus = x := by
  rw [State.nextStimulus, h]

/-- Settles O38: an operation's words decode to that operation alone. -/
theorem stepRunsDecodedOperation : Obligations.StepRunsDecodedOperation := by
  intro s i x rest hkind hwf hencode hstim
  have hfetch : s.fetchOps = [i] := by
    rw [State.fetchOps, nextStimulus_of_stim hstim, ← hencode, decode_encode_of_cycle hkind hwf]
  rw [step_eq_runOps, hfetch, runOps_singleton, State.beginCycle, hstim]
  rfl

/-- The stream ports of a word under the mask of the four port bits (30_encoding.md R100). -/
theorem streamPorts_of_mask {sw : StreamWord} (h : sw &&& 0xF00 = 0) :
    sw.getLsbD 11 = false ∧ sw.getLsbD 10 = false ∧ sw.getLsbD 9 = false ∧ sw.getLsbD 8 = false := by
  have hbit : ∀ p, (sw.getLsbD p && (0xF00 : StreamWord).getLsbD p) = false := fun p => by
    rw [← BitVec.getLsbD_and, h]
    exact BitVec.getLsbD_zero
  exact ⟨by simpa using hbit 11, by simpa using hbit 10, by simpa using hbit 9, by simpa using hbit 8⟩

theorem cycleInputOf_of_no_operation {x : Stimulus} (hsw : x.sw &&& 0xF00 = 0) (hwe : x.hw.getLsbD 41 = false)
    (hre : x.hw.getLsbD 40 = false) : cycleInputOf x = ⟨false, none, false, false, none, none⟩ := by
  obtain ⟨hrst, htick, hclosed, hvalid⟩ := streamPorts_of_mask hsw
  rw [cycleInputOf, hrst, htick, hclosed, hvalid, hwe, hre]
  rfl

/-- Settles O3: with nothing on the ports every phase is idle. -/
theorem emptyCycleChangesNothing : Obligations.EmptyCycleChangesNothing := by
  refine ⟨exec_nop, fun s hsw hwe hre => ?_⟩
  rw [step_eq_cycleOf, cycleInputOf_of_no_operation hsw hwe hre]
  rfl

/-! ## STOPPED (43_control_host.md R207) -/

/-- In STOPPED no command and no configuration write acts. -/
theorem regWrite_of_stopped {s : State} (h : s.run = .stopped) (a : Addr) (v : Word32) : s.regWrite a v = s := by
  have hne : s.run ≠ .starting := by rw [h]; decide
  rcases s.regWrite_cases a v with ⟨_, heq⟩ | ⟨_, _, heq⟩ | ⟨_, _, _, heq⟩ | ⟨_, f, _, heq⟩ <;> rw [heq]
  · rw [State.stopRun, h]
  · exact if_neg hne
  · exact whileStarting_of_ne_starting hne f

theorem phaseHost_of_stopped {s : State} (h : s.run = .stopped) (w : Option (Addr × Word32)) : phaseHost w s = s :=
  phaseHost_keeps (P := (· = s)) w (regWrite_of_stopped h) rfl

theorem phaseRead_run (a : Option Addr) (s : State) : (phaseRead a s).run = s.run := by cases a <;> rfl

/-- In STOPPED a cycle without reset is its read. -/
theorem step_of_stopped {s : State} (h : s.run = .stopped) (hrst : s.nextStimulus.sw.getLsbD 11 = false) :
    step s = .next (phaseRead (cycleInputOf s.nextStimulus).hostRd s.beginCycle) := by
  have hstopped : s.beginCycle.run = .stopped := h
  rw [step_of_not_running (by rw [h]; decide) hrst, phaseHost_of_stopped (by rw [phaseRead_run, hstopped])]

/-- A read changes nothing of the machine and emits nothing. -/
theorem phaseRead_frame (a : Option Addr) (s : State) :
    (phaseRead a s).arch = s.arch ∧ (phaseRead a s).out = s.out ∧ (phaseRead a s).trace = s.trace := by
  cases a <;> exact ⟨rfl, rfl, rfl⟩

/-- Settles O43: without reset only the read is left of the cycle; with reset the state is that after reset. -/
theorem stoppedIsFinal : Obligations.StoppedIsFinal := by
  intro s h
  refine ⟨fun hrst => ?_, fun hrst => ⟨_, step_eq_cycleOf s, ?_⟩⟩
  · obtain ⟨harch, hout, htrace⟩ := phaseRead_frame (cycleInputOf s.nextStimulus).hostRd s.beginCycle
    refine ⟨_, step_of_stopped h hrst, harch, hout, htrace, fun hre => ?_⟩
    rw [hostRd_of_re hre]
    rfl
  · rw [cycleOf_of_reset hrst]
    rfl

end Sys2Proof.Machine

/-! The events of a cycle (60_exceptions.md R230 to R248): what each phase appends to the output list, in which shape and
from what cause. -/

namespace Sys2Proof.Machine

/-! ## Events appended from one state to another -/

/-- From `s` to `t` the events `es` are appended, to the cycle's list and to the run's (20_memory.md R73). -/
def Emits (es : List OutEvent) (s t : State) : Prop := t.out = s.out ++ es ∧ t.trace = s.trace ++ es

theorem Emits.refl (s : State) : Emits [] s s := ⟨(List.append_nil _).symm, (List.append_nil _).symm⟩

theorem Emits.trans {es es' : List OutEvent} {s t u : State} (hst : Emits es s t) (htu : Emits es' t u) :
    Emits (es ++ es') s u := by
  obtain ⟨hout, htrace⟩ := hst
  obtain ⟨hout', htrace'⟩ := htu
  exact ⟨by rw [hout', hout, List.append_assoc], by rw [htrace', htrace, List.append_assoc]⟩

theorem emits_emitAll_epilogue (es : List OutEvent) (s : State) : Emits es s (s.emitAll es).epilogue := by
  rw [State.epilogue_eq]
  exact ⟨rfl, rfl⟩

/-! ## The causes -/

/-- What the ports of a cycle and the bytes held at its start must be for it to give an event: a frame's events come with
a fourth byte (40_framesync.md R122), the others from the cause of their outcome (60_exceptions.md R231, R232, R233). -/
def OutEvent.CausedBy (i : CycleInput) (held : BitVec 2) : OutEvent → Prop
  | .raw _ | .decoded _ | .intent _ => i.byte.isSome = true ∧ held = 3
  | .timeout => i.tick = true ∧ i.closed = false
  | .partialFrame n _ _ _ => n ≠ 0 ∧ (i.tick = true ∨ i.closed = true)
  | .fatal c => c = 3 ∧ i.closed = true

theorem causedBy_of_mem_frameEvents {i : CycleInput} {held : BitVec 2} (hbyte : i.byte.isSome = true) (hheld : held = 3)
    {F : Frame} {ev : DecodedEvent} {d : Option Intent} {e : OutEvent} (he : e ∈ frameEvents F ev d) :
    e.CausedBy i held := by
  simp only [frameEvents, List.mem_append, List.mem_cons, List.not_mem_nil, or_false, Option.mem_toList,
    Option.map_eq_some_iff] at he
  obtain (rfl | rfl) | ⟨_, _, rfl⟩ := he <;> exact ⟨hbyte, hheld⟩

/-! ## What each phase emits -/

theorem byteEvents_frameEvents (F : Frame) (ev : DecodedEvent) (d : Option Intent) :
    byteEvents (frameEvents F ev d) = true := by
  cases d <;> rfl

theorem acceptByte_emits (b : Byte) (s : State) :
    Emits [] s (s.acceptByte b) ∨ s.cnt = 3 ∧ ∃ F ev d, Emits (frameEvents F ev d) s (s.acceptByte b) := by
  rcases s.acceptByte_cases b with ⟨_, heq⟩ | ⟨_, hcnt, heq⟩ | ⟨_, hcnt, heq⟩ <;> rw [heq]
  · exact .inl (.refl s)
  · rw [State.storeByte_eq b s hcnt]
    exact .inl (Emits.refl s)
  · rw [State.processFrame_eq]
    exact .inr ⟨BitVec.eq_of_toNat_eq hcnt, _, _, _, emits_emitAll_epilogue _ (s.drive _)⟩

theorem phaseByte_emits (i : CycleInput) (s : State) :
    ∃ es, Emits es s (phaseByte i.byte s) ∧ byteEvents es = true ∧ ∀ e ∈ es, e.CausedBy i s.cnt := by
  cases hbyte : i.byte with
  | none => exact ⟨[], .refl s, rfl, nofun⟩
  | some b =>
    rcases acceptByte_emits b s with hnone | ⟨hcnt, F, ev, d, hframe⟩
    · exact ⟨[], hnone, rfl, nofun⟩
    · exact ⟨_, hframe, byteEvents_frameEvents F ev d,
        fun _ => causedBy_of_mem_frameEvents (Option.isSome_of_mem hbyte) hcnt⟩

/-- The closure reports the bytes held, if there are any, and then itself (60_exceptions.md R232, R233). -/
theorem sourceClosed_emits (s : State) :
    Emits [] s s.sourceClosed ∨ Emits [.fatal 3] s s.sourceClosed ∨
      s.cnt ≠ 0 ∧ Emits [.partialFrame s.cnt s.buf0 s.buf1 s.buf2, .fatal 3] s s.sourceClosed := by
  rcases s.sourceClosed_cases with ⟨_, heq⟩ | ⟨_, heq⟩ <;> rw [heq]
  · exact .inl (.refl s)
  · by_cases hcnt : s.cnt = 0
    · rw [if_pos hcnt]
      exact .inr (.inl ⟨rfl, rfl⟩)
    · rw [if_neg hcnt]
      exact .inr (.inr ⟨hcnt, rfl, rfl⟩)

theorem phaseClose_emits (i : CycleInput) (held : BitVec 2) (s : State) :
    ∃ es, Emits es s (phaseClose i.closed s) ∧ closeEvents es = true ∧ (i.closed = false → es = []) ∧
      ∀ e ∈ es, e.CausedBy i held := by
  cases hclosed : i.closed with
  | false => exact ⟨[], .refl s, rfl, fun _ => rfl, nofun⟩
  | true =>
    rcases sourceClosed_emits s with hnone | hfatal | ⟨hcnt, hpartial⟩
    · exact ⟨[], hnone, rfl, fun _ => rfl, nofun⟩
    · exact ⟨_, hfatal, rfl, nofun, by simp [OutEvent.CausedBy, hclosed]⟩
    · exact ⟨_, hpartial, rfl, nofun, by simpa [OutEvent.CausedBy, hclosed] using hcnt⟩

/-- A closed source leaves no run in RUNNING (40_framesync.md R125). -/
theorem sourceClosed_run_ne_running (s : State) : s.sourceClosed.run ≠ .running := by
  rcases s.sourceClosed_cases with ⟨hrun, heq⟩ | ⟨_, heq⟩ <;> rw [heq]
  · exact hrun
  · simp

/-- A closure in the cycle gates off the tick (60_exceptions.md R237). -/
theorem phaseTick_of_closed (tick : Bool) (s : State) : phaseTick tick (phaseClose true s) = s.sourceClosed := by
  cases tick with
  | false => rfl
  | true => exact timebaseTick_of_not_running (sourceClosed_run_ne_running s)

theorem timebaseTick_emits (s : State) :
    Emits [] s s.timebaseTick ∨ Emits [.timeout] s s.timebaseTick ∨
      s.cnt ≠ 0 ∧ Emits [.partialFrame s.cnt s.buf0 s.buf1 s.buf2] s s.timebaseTick := by
  rcases s.timebaseTick_cases with ⟨_, heq⟩ | ⟨_, _, heq⟩ | ⟨_, _, heq⟩ <;> rw [heq]
  · exact .inl (.refl s)
  · exact .inl (Emits.refl s)
  · by_cases hcnt : s.cnt = 0
    · rw [if_pos hcnt]
      exact .inr (.inl (emits_emitAll_epilogue _ s))
    · rw [if_neg hcnt]
      exact .inr (.inr ⟨hcnt, emits_emitAll_epilogue _ s⟩)

theorem phaseTick_emits (i : CycleInput) (held : BitVec 2) (s : State) :
    ∃ es, Emits es (phaseClose i.closed s) (phaseTick i.tick (phaseClose i.closed s)) ∧ tickEvents es = true ∧
      (i.closed = true → es = []) ∧ ∀ e ∈ es, e.CausedBy i held := by
  cases hclosed : i.closed with
  | true =>
    rw [phaseTick_of_closed]
    exact ⟨[], .refl _, rfl, fun _ => rfl, nofun⟩
  | false =>
    cases htick : i.tick with
    | false => exact ⟨[], .refl s, rfl, fun _ => rfl, nofun⟩
    | true =>
      rcases timebaseTick_emits s with hnone | htimeout | ⟨hcnt, hpartial⟩
      · exact ⟨[], hnone, rfl, fun _ => rfl, nofun⟩
      · exact ⟨_, htimeout, rfl, nofun, by simp [OutEvent.CausedBy, htick, hclosed]⟩
      · exact ⟨_, hpartial, rfl, nofun, by simpa [OutEvent.CausedBy, htick] using hcnt⟩

theorem phaseRead_emits (a : Option Addr) (s : State) : Emits [] s (phaseRead a s) := by
  cases a <;> exact Emits.refl s

theorem phaseRead_cnt (a : Option Addr) (s : State) : (phaseRead a s).cnt = s.cnt := by cases a <;> rfl

theorem regWrite_emits (a : Addr) (v : Word32) (s : State) : Emits [] s (s.regWrite a v) := by
  rcases s.regWrite_cases a v with ⟨_, heq⟩ | ⟨_, _, heq⟩ | ⟨_, _, _, heq⟩ | ⟨_, f, hf, heq⟩ <;> rw [heq]
  · exact .refl s
  · rcases s.stopRun_cases with ⟨_, hstop⟩ | ⟨_, hstop⟩ | ⟨_, hstop⟩ <;> rw [hstop] <;> exact Emits.refl s
  · rcases s.startRun_cases with ⟨_, hstart⟩ | ⟨_, hstart⟩ <;> rw [hstart] <;> exact Emits.refl s
  · rcases s.whileStarting_cases f with ⟨_, hw⟩ | ⟨_, hw⟩ <;> rw [hw]
    · cases hf <;> exact Emits.refl s
    · exact .refl s

/-- No host operation emits an event (60_exceptions.md R248). -/
theorem phaseHost_emits (w : Option (Addr × Word32)) (s : State) : Emits [] s (phaseHost w s) :=
  phaseHost_keeps w (fun a v => regWrite_emits a v s) (.refl s)

/-! ## What a cycle emits -/

/-- A cycle without reset emits what its three stream phases do, each event with its cause. -/
theorem cycleOf_emits {i : CycleInput} (hrst : i.rst = false) (s : State) :
    ∃ es, Emits es s (cycleOf i s) ∧ CycleEvents es ∧ ∀ e ∈ es, e.CausedBy i s.cnt := by
  obtain ⟨bs, hbyte, hbs, hbcause⟩ := phaseByte_emits i (phaseRead i.hostRd s)
  obtain ⟨cs, hclose, hcs, hcnone, hccause⟩ := phaseClose_emits i s.cnt (phaseByte i.byte (phaseRead i.hostRd s))
  obtain ⟨ts, htick, hts, htnone, htcause⟩ := phaseTick_emits i s.cnt (phaseByte i.byte (phaseRead i.hostRd s))
  rw [phaseRead_cnt] at hbcause
  have hemits : Emits (bs ++ cs ++ ts) s (cycleOf i s) := by
    have hall := ((((phaseRead_emits i.hostRd s).trans hbyte).trans hclose).trans htick).trans
      (phaseHost_emits i.hostWr _)
    rw [List.nil_append, List.append_nil] at hall
    rw [cycleOf_of_no_reset hrst]
    exact hall
  have hgate : cs = [] ∨ ts = [] := by
    cases hclosed : i.closed with
    | false => exact .inl (hcnone hclosed)
    | true => exact .inr (htnone hclosed)
  refine ⟨_, hemits, ⟨bs, cs, ts, rfl, hbs, hcs, hts, hgate⟩, fun e he => ?_⟩
  rcases List.mem_append.mp he with hbc | ht
  · rcases List.mem_append.mp hbc with hb | hc
    · exact hbcause e hb
    · exact hccause e hc
  · exact htcause e ht

/-- The events of a step: their shape, their place in the run's events, and their causes. -/
theorem step_events {s t : State} (hstep : step s = .next t) :
    CycleEvents t.out ∧ t.trace = s.trace ++ t.out ∧
      ∀ e ∈ t.out, e.CausedBy (cycleInputOf s.nextStimulus) s.cnt := by
  rw [eq_cycleOf_of_step hstep]
  cases hrst : (cycleInputOf s.nextStimulus).rst with
  | true =>
    rw [cycleOf_of_reset hrst]
    exact ⟨⟨[], [], [], rfl, rfl, rfl, rfl, .inl rfl⟩, (List.append_nil _).symm, nofun⟩
  | false =>
    obtain ⟨es, ⟨hout, htrace⟩, hshape, hcause⟩ := cycleOf_emits hrst s.beginCycle
    rw [show (cycleOf (cycleInputOf s.nextStimulus) s.beginCycle).out = es from hout]
    exact ⟨hshape, htrace, hcause⟩

/-- Settles O45: each phase appends a list of its own shape, and a closure leaves the tick nothing. -/
theorem cycleEventsInOrder : Obligations.CycleEventsInOrder := by
  intro s t hstep
  obtain ⟨hshape, htrace, _⟩ := step_events hstep
  exact ⟨hshape, htrace⟩

/-! ## Where events come from -/

/-- Only a cycle in RUNNING and without reset gives events. -/
theorem running_of_mem_out {s t : State} (hstep : step s = .next t) {e : OutEvent} (he : e ∈ t.out) :
    s.run = .running ∧ s.nextStimulus.sw.getLsbD 11 = false := by
  have hrst : s.nextStimulus.sw.getLsbD 11 = false := by
    by_contra hreset
    rw [eq_cycleOf_of_step hstep, cycleOf_of_reset (eq_true_of_ne_false hreset)] at he
    cases he
  refine ⟨?_, hrst⟩
  by_contra hrun
  rw [step_of_not_running hrun hrst] at hstep
  cases hstep
  obtain ⟨hout, _⟩ := (phaseRead_emits (cycleInputOf s.nextStimulus).hostRd s.beginCycle).trans
    (phaseHost_emits (cycleInputOf s.nextStimulus).hostWr _)
  rw [hout] at he
  cases he

/-- A closure in RUNNING stops the run, whatever else the cycle holds (60_exceptions.md R233). -/
theorem cycleOf_run_of_closed {i : CycleInput} (hrst : i.rst = false) (hclosed : i.closed = true) {s : State}
    (hrun : s.run = .running) : (cycleOf i s).run = .stopped := by
  have hbefore := beforeHost_staysOrStops i s
  have hhalted : (beforeHost i s).run ≠ .running := by
    rw [beforeHost, hclosed, phaseTick_of_closed]
    exact sourceClosed_run_ne_running _
  rw [cycleOf_of_no_reset hrst, phaseHost_run_of_ne_starting (hbefore.run_ne_starting (by simp [hrun]))]
  rcases hbefore with ⟨hstay, _⟩ | ⟨_, hstop, _⟩
  · exact absurd (hstay.trans hrun) hhalted
  · exact hstop

theorem byte_isSome_iff (x : Stimulus) : (cycleInputOf x).byte.isSome = true ↔ x.sw.getLsbD 8 = true :=
  Option.isSome_ite

/-- Settles O46: every event of a step has its cause, and the cause of FATAL stops the run. -/
theorem eventsHaveTheirCause : Obligations.EventsHaveTheirCause := by
  intro s t hstep sw
  obtain ⟨_, _, hcause⟩ := step_events hstep
  refine ⟨fun e he => running_of_mem_out hstep he, fun c he => ?_, fun he => hcause _ he,
    fun n b0 b1 b2 he => hcause _ he, fun F he => ?_⟩
  · obtain ⟨hcode, hclosed⟩ : c = 3 ∧ (cycleInputOf s.nextStimulus).closed = true := hcause _ he
    obtain ⟨hrun, hrst⟩ := running_of_mem_out hstep he
    rw [eq_cycleOf_of_step hstep]
    exact ⟨hcode, hclosed, cycleOf_run_of_closed hrst hclosed hrun⟩
  · obtain ⟨hbyte, hheld⟩ : (cycleInputOf s.nextStimulus).byte.isSome = true ∧ s.cnt = 3 := hcause _ he
    exact ⟨(byte_isSome_iff s.nextStimulus).mp hbyte, hheld⟩

end Sys2Proof.Machine

/-! Reset, shadowed table entries, and the stop that waits (70_reset_and_hazards.md R260, R274, R275). -/

namespace Sys2Proof.Machine

/-! ## Reset (R260) -/

/-- In STOPPED only reset moves the run state. -/
theorem rst_of_leaves_stopped {s t : State} (hstep : step s = .next t) (hs : s.run = .stopped)
    (ht : t.run ≠ .stopped) : s.nextStimulus.sw.getLsbD 11 = true := by
  by_contra hrst
  rw [step_of_stopped hs (eq_false_of_ne_true hrst)] at hstep
  cases hstep
  exact ht ((phaseRead_run _ s.beginCycle).trans hs)

/-- After START only reset changes the configuration. -/
theorem rst_of_changes_config {s t : State} (hstep : step s = .next t) (hs : s.run ≠ .starting)
    (ht : t.config ≠ s.config) : s.nextStimulus.sw.getLsbD 11 = true := by
  by_contra hrst
  exact ht (configFrozenAfterStart s t hs (eq_false_of_ne_true hrst) hstep)

/-- Settles O1: a cycle with reset is RESET alone; without it STOPPED and the configuration after START are kept. -/
theorem resetGivesState0 : Obligations.ResetGivesState0 := by
  refine ⟨exec_reset, fun s x rest hstim hrst => ?_, fun s t hstep hcause => ?_⟩
  · rw [step_eq_cycleOf, nextStimulus_of_stim hstim, cycleOf_of_reset hrst, State.beginCycle, hstim]
    rfl
  · rcases hcause with ⟨hs, ht⟩ | ⟨hs, ht⟩
    · exact rst_of_leaves_stopped hstep hs ht
    · exact rst_of_changes_config hstep hs ht

/-! ## Shadowed entries (R275) -/

/-- Settles O22: an entry that wins has the key looked up, and so has the valid entry before it. -/
theorem shadowedRuleNeverWins : Obligations.ShadowedRuleNeverWins := by
  intro cam i j d e hij hd he hdvalid _ hkey k c hwins
  obtain ⟨hc, _, hck, hleast⟩ := camLookup_eq_some_iff.mp hwins
  have hce : c = e := Option.some.inj (hc.symm.trans he)
  exact hleast i d hij hd ⟨hdvalid, by rw [hkey, ← hce, hck]⟩

/-! ## A stop that waits (R127, R274) -/

/-- The machine has stopped, or a stop waits for a read in flight whose window ends within `n` ticks. -/
def StopsWithin (n : Nat) (s : State) : Prop :=
  s.run = .stopped ∨
    (s.run = .running ∧ s.stopReq = true ∧ s.cnt ≠ 0 ∧ 1 ≤ s.tmoCnt.toNat ∧ s.tmoCnt.toNat ≤ n)

theorem epilogue_run_of_stop {s : State} (hreq : s.stopReq = true) : s.epilogue.run = .stopped := by
  simp [State.epilogue_eq, hreq]

/-- In RUNNING with a stop requested no write acts: STOP asks for what is asked already. -/
theorem regWrite_of_stop_waiting {s : State} (hrun : s.run = .running) (hreq : s.stopReq = true) (a : Addr)
    (v : Word32) : s.regWrite a v = s := by
  have hne : s.run ≠ .starting := by rw [hrun]; decide
  rcases s.regWrite_cases a v with ⟨_, heq⟩ | ⟨_, _, heq⟩ | ⟨_, _, _, heq⟩ | ⟨_, f, _, heq⟩ <;> rw [heq]
  · have hstop : s.stopRun = { s with stopReq := true } := by simp only [State.stopRun, hrun]
    rw [hstop, ← hreq]
  · exact if_neg hne
  · exact whileStarting_of_ne_starting hne f

section

variable {n : Nat} {s : State}

theorem StopsWithin.run_stopped (h : StopsWithin 0 s) : s.run = .stopped := by
  rcases h with hstop | ⟨_, _, _, hopen, hend⟩
  · exact hstop
  · omega

/-- A byte is held beside the others, which leaves the window, or completes a frame, which takes the stop. -/
theorem StopsWithin.acceptByte (h : StopsWithin n s) (b : Byte) : StopsWithin n (s.acceptByte b) := by
  rcases h with hstop | ⟨hrun, hreq, hcnt, hwindow⟩
  · rw [acceptByte_of_not_running (by rw [hstop]; decide)]
    exact .inl hstop
  · rcases s.acceptByte_cases b with ⟨hne, _⟩ | ⟨_, hearly, _⟩ | ⟨_, _, heq⟩
    · exact absurd hrun hne
    · rw [acceptByte_of_early hrun hearly]
      have hmore : s.cnt + 1 ≠ 0 := by bv_omega
      exact .inr ⟨hrun, hreq, hmore, by simpa only [if_neg hcnt] using hwindow⟩
    · rw [heq, State.processFrame_eq]
      exact .inl (epilogue_run_of_stop hreq)

theorem StopsWithin.sourceClosed (h : StopsWithin n s) : StopsWithin n s.sourceClosed := by
  rcases s.sourceClosed_cases with ⟨_, heq⟩ | ⟨_, heq⟩ <;> rw [heq]
  · exact h
  · exact .inl rfl

/-- A tick brings the end of the window nearer, and the last one takes the stop. -/
theorem StopsWithin.timebaseTick (h : StopsWithin (n + 1) s) : StopsWithin n s.timebaseTick := by
  rcases h with hstop | ⟨hrun, hreq, hcnt, _, hend⟩
  · rw [timebaseTick_of_not_running (by rw [hstop]; decide)]
    exact .inl hstop
  · by_cases hmore : 1 < s.tmoCnt.toNat
    · rw [timebaseTick_of_open hrun hmore]
      have hless : (s.tmoCnt - 1).toNat = s.tmoCnt.toNat - 1 := toNat_sub_ticks (n := 1) (by omega)
      exact .inr ⟨hrun, hreq, hcnt, by simp only [hless]; omega, by simp only [hless]; omega⟩
    · rw [timebaseTick_of_expired hrun (by omega)]
      exact .inl (epilogue_run_of_stop hreq)

theorem StopsWithin.phaseHost_eq (h : StopsWithin n s) (w : Option (Addr × Word32)) : phaseHost w s = s := by
  rcases h with hstop | ⟨hrun, hreq, _⟩
  · exact phaseHost_of_stopped hstop w
  · exact phaseHost_keeps (P := (· = s)) w (regWrite_of_stop_waiting hrun hreq) rfl

/-- The stream phases of a cycle with a tick: whatever the others do, the tick comes after them. -/
theorem StopsWithin.beforeHost {i : CycleInput} (htick : i.tick = true) (h : StopsWithin (n + 1) s) :
    StopsWithin n (beforeHost i s) := by
  have hread : StopsWithin (n + 1) (phaseRead i.hostRd s) := by
    cases i.hostRd <;> exact h
  have hbyte : StopsWithin (n + 1) (phaseByte i.byte (phaseRead i.hostRd s)) := by
    cases i.byte with
    | none => exact hread
    | some b => exact hread.acceptByte b
  have hclose : StopsWithin (n + 1) (phaseClose i.closed (phaseByte i.byte (phaseRead i.hostRd s))) := by
    cases i.closed with
    | false => exact hbyte
    | true => exact hbyte.sourceClosed
  rw [Machine.beforeHost, htick]
  exact hclose.timebaseTick

/-- With a stop waiting, a cycle with a tick and no reset ends as its stream phases do. -/
theorem StopsWithin.cycleOf_eq {i : CycleInput} (hrst : i.rst = false) (htick : i.tick = true)
    (h : StopsWithin (n + 1) s) : cycleOf i s = Machine.beforeHost i s := by
  rw [cycleOf_of_no_reset hrst, (h.beforeHost htick).phaseHost_eq]

end

/-! ### The cycles to come are the environment's -/

theorem acceptByte_stim (b : Byte) (s : State) : (s.acceptByte b).stim = s.stim := by
  rcases s.acceptByte_cases b with ⟨_, heq⟩ | ⟨_, hcnt, heq⟩ | ⟨_, _, heq⟩ <;> rw [heq]
  · rw [State.storeByte_eq b s hcnt]
  · rw [State.processFrame_eq, State.epilogue_eq]; rfl

theorem sourceClosed_stim (s : State) : s.sourceClosed.stim = s.stim := by
  rcases s.sourceClosed_cases with ⟨_, heq⟩ | ⟨_, heq⟩ <;> rw [heq]
  rfl

theorem timebaseTick_stim (s : State) : s.timebaseTick.stim = s.stim := by
  rcases s.timebaseTick_cases with ⟨_, heq⟩ | ⟨_, _, heq⟩ | ⟨_, _, heq⟩ <;> rw [heq]
  rw [State.epilogue_eq]; rfl

/-- No stream operation touches the stimulus of the cycles to come. -/
theorem beforeHost_stim (i : CycleInput) (s : State) : (beforeHost i s).stim = s.stim :=
  beforeHost_keeps (P := fun t => t.stim = s.stim)
    (fun _ _ ht => ht)
    (fun b t ht => (acceptByte_stim b t).trans ht)
    (fun _ t ht => (sourceClosed_stim t).trans ht)
    (fun t ht => (timebaseTick_stim t).trans ht)
    rfl

/-! ### As many cycles with a tick as the window has ticks left -/

/-- A step with a tick and no reset leaves one tick less, and the cycles after it. -/
theorem StopsWithin.step {n : Nat} {s : State} {x : Stimulus} {rest : List Stimulus} (h : StopsWithin (n + 1) s)
    (hstim : s.stim = x :: rest) (hrst : x.sw.getLsbD 11 = false) (htick : x.sw.getLsbD 10 = true) :
    ∃ t, Machine.step s = .next t ∧ StopsWithin n t ∧ t.stim = rest := by
  have hbegin : StopsWithin (n + 1) s.beginCycle := h
  refine ⟨Machine.beforeHost (cycleInputOf x) s.beginCycle, ?_, hbegin.beforeHost htick, ?_⟩
  · rw [step_eq_cycleOf, nextStimulus_of_stim hstim, hbegin.cycleOf_eq hrst htick]
  · rw [beforeHost_stim, State.beginCycle, hstim]
    rfl

theorem StopsWithin.runCycles {n : Nat} {s : State} (h : StopsWithin n s) (hlen : n ≤ s.stim.length)
    (hticks : ∀ x ∈ s.stim.take n, x.sw.getLsbD 11 = false ∧ x.sw.getLsbD 10 = true) :
    ∃ t, Machine.runCycles n s = .next t ∧ t.run = .stopped := by
  induction n generalizing s with
  | zero => exact ⟨s, rfl, h.run_stopped⟩
  | succ n ih =>
    obtain ⟨x, rest, hstim⟩ := List.exists_cons_of_length_pos (Nat.zero_lt_of_lt hlen)
    simp only [hstim, List.take_succ_cons, List.forall_mem_cons] at hticks
    obtain ⟨⟨hrst, htick⟩, hlater⟩ := hticks
    obtain ⟨t, hstep, ht, rfl⟩ := h.step hstim hrst htick
    rw [hstim, List.length_cons] at hlen
    rw [runCycles_succ hstep]
    exact ih ht (Nat.le_of_succ_le_succ hlen) hlater

/-- Settles O51: in RUNNING a window is open (10_state.md R43), each cycle's tick counts it down, and its end takes
the stop. -/
theorem requestedStopArrives : Obligations.RequestedStopArrives := by
  intro s hinv hrun hreq hcnt hlen hticks
  have hwaits : StopsWithin s.tmoCnt.toNat s := .inr ⟨hrun, hreq, hcnt, (hinv.window hrun).1, le_rfl⟩
  exact hwaits.runCycles hlen hticks

end Sys2Proof.Machine
